-- ==== Sys2Proof/Word.lean ====
section
/-! DEFINITION. The widths of the debounce block (spec/00_scope.md R11, R12): plain bit vectors, and nothing else. -/

namespace Sys2Proof

/-- A 16-bit value: a command word (R71) or the `power_state` field (R35). -/
abbrev Word := BitVec 16

/-- An 8-bit value: a key code, a report byte, a battery level, the `flags` byte. -/
abbrev Byte := BitVec 8

/-- The time counter's width, 32 bits (R12, R23). -/
abbrev Time := BitVec 32

/-- A timer down-counter's width, 16 bits (R12, R24, R25). -/
abbrev Count := BitVec 16

/-- A ButtonMask: bit 0 button A, bit 1 button B, bit 2 long-press confirmed (R36). -/
abbrev ButtonMask := BitVec 3

/-- The 2-bit raw mask of a sample: bit 0 button A, bit 1 button B (R30, R108). -/
abbrev RawMask := BitVec 2

end Sys2Proof
end

