-- ==== Sys2Proof/Syntax.lean ====
section
/-! DEFINITION. The thirteen operations of spec/30_encoding.md R70 as one inductive, and the two buttons. -/

namespace Sys2Proof

/-- The two button inputs (R7, R11); in a command word A is 0 and B is 1 (R72). -/
inductive Button where
  | A
  | B
deriving DecidableEq, Repr, Inhabited

/-- One value per button: the shape of `raw_level`, of `last_change_time` and of a level sample. -/
structure PerButton (α : Type) where
  a : α
  b : α
deriving DecidableEq, Repr, Inhabited

/-- The operations of R70, one constructor per row of spec/opcode_table.json, with operands at the
widths R72 assembles them at. -/
inductive Instr where
  /-- RESET (R250) -/
  | reset
  /-- EDGE b (R100) -/
  | edge (b : Button)
  /-- TICK (R104) -/
  | tick
  /-- RUN_DEB (R108) -/
  | runDeb
  /-- RUN_LP (R134) -/
  | runLp
  /-- REG (R116) -/
  | reg
  /-- KB_SET c (R155) -/
  | kbSet (c : Byte)
  /-- KB_CLR c (R157) -/
  | kbClr (c : Byte)
  /-- KB_APPLY m (R160) -/
  | kbApply (m : ButtonMask)
  /-- KB_SER (R170) -/
  | kbSer
  /-- KB_SEND (R172) -/
  | kbSend
  /-- BAT_COMPUTE l, ch (R195) -/
  | batCompute (l : Byte) (ch : Bool)
  /-- BAT_NOTIFY l (R200) -/
  | batNotify (l : Byte)
deriving DecidableEq, Repr

end Sys2Proof
end

