-- ==== Sys2Proof/Decode.lean ====
section
/-! DEFINITION. Command words (spec/30_encoding.md R71 to R78): the decoder, total on all words and rejecting by
name, the encoder written from R78's table, the rows of R73, and the byte form of R77. -/

namespace Sys2Proof

/-- Why a command word is illegal (R75), or a byte list holds no command word (R77). -/
inductive DecodeError where
  /-- `CLS` in 0xB..0xF -/
  | reservedClass
  /-- a must-be-zero bit of formats Z, B, K, M, C or L is set -/
  | mustBeZero
  /-- `SUB` other than 0 and 1 in format S -/
  | badSub
  /-- fewer than two bytes are left -/
  | truncated
deriving DecidableEq, Repr

/-- The class field `CLS = w[15:12]` (R71). -/
def classOf (w : Word) : Nat :=
  (w.extractLsb' 12 4).toNat

/-- The instruction `i`, unless one of the must-be-zero bits given is set. -/
def requireZero {n : Nat} (bits : BitVec n) (i : Instr) : Except DecodeError Instr :=
  if bits = 0 then .ok i else .error .mustBeZero

/-- Format S: `SUB = w[11:0]` selects one of two operations (R71, R75). -/
def decodeSub (w : Word) (sub0 sub1 : Instr) : Except DecodeError Instr :=
  match (w.extractLsb' 0 12).toNat with
  | 0 => .ok sub0
  | 1 => .ok sub1
  | _ => .error .badSub

/-- The button operand `b = w[0]`: A when 0, B when 1 (R72). -/
def buttonOfBit (b : Bool) : Button :=
  match b with
  | false => .A
  | true => .B

/-- Decoding a command word (R71 to R75). -/
def decode (w : Word) : Except DecodeError Instr :=
  match classOf w with
  | 0x0 => requireZero (w.extractLsb' 0 12) .reset
  | 0x1 => requireZero (w.extractLsb' 1 11) (.edge (buttonOfBit (w.getLsbD 0)))
  | 0x2 => requireZero (w.extractLsb' 0 12) .tick
  | 0x3 => decodeSub w .runDeb .runLp
  | 0x4 => requireZero (w.extractLsb' 0 12) .reg
  | 0x5 => requireZero (w.extractLsb' 8 4) (.kbSet (w.extractLsb' 0 8))
  | 0x6 => requireZero (w.extractLsb' 8 4) (.kbClr (w.extractLsb' 0 8))
  | 0x7 => requireZero (w.extractLsb' 3 9) (.kbApply (w.extractLsb' 0 3))
  | 0x8 => decodeSub w .kbSer .kbSend
  | 0x9 => requireZero (w.extractLsb' 9 3) (.batCompute (w.extractLsb' 0 8) (w.getLsbD 8))
  | 0xA => requireZero (w.extractLsb' 8 4) (.batNotify (w.extractLsb' 0 8))
  | _ => .error .reservedClass

/-- Encoding an instruction (R78's table of words). -/
def encode (i : Instr) : Word :=
  match i with
  | .reset => 0x0000
  | .edge .A => 0x1000
  | .edge .B => 0x1001
  | .tick => 0x2000
  | .runDeb => 0x3000
  | .runLp => 0x3001
  | .reg => 0x4000
  | .kbSet c => 0x5000 ||| c.setWidth 16
  | .kbClr c => 0x6000 ||| c.setWidth 16
  | .kbApply m => 0x7000 ||| m.setWidth 16
  | .kbSer => 0x8000
  | .kbSend => 0x8001
  | .batCompute l ch => 0x9000 ||| ((BitVec.ofBool ch).setWidth 16 <<< 8) ||| l.setWidth 16
  | .batNotify l => 0xA000 ||| l.setWidth 16

/-- A row of R73's opcode map. -/
structure OpcodeRow where
  mnemonic : String
  pattern  : Word
  mask     : Word
deriving DecidableEq, Repr

/-- The word `w` matches the row: `(w & mask) = match` (R73). -/
abbrev OpcodeRow.Matches (r : OpcodeRow) (w : Word) : Prop :=
  w &&& r.mask = r.pattern

/-- R73's opcode map, in its order (the `match` and `mask` columns of spec/opcode_table.json). -/
def opcodeRows : List OpcodeRow :=
  [ ⟨"RESET",       0x0000, 0xFFFF⟩, ⟨"EDGE",       0x1000, 0xFFFE⟩, ⟨"TICK",    0x2000, 0xFFFF⟩,
    ⟨"RUN_DEB",     0x3000, 0xFFFF⟩, ⟨"RUN_LP",     0x3001, 0xFFFF⟩, ⟨"REG",     0x4000, 0xFFFF⟩,
    ⟨"KB_SET",      0x5000, 0xFF00⟩, ⟨"KB_CLR",     0x6000, 0xFF00⟩, ⟨"KB_APPLY", 0x7000, 0xFFF8⟩,
    ⟨"KB_SER",      0x8000, 0xFFFF⟩, ⟨"KB_SEND",    0x8001, 0xFFFF⟩,
    ⟨"BAT_COMPUTE", 0x9000, 0xFE00⟩, ⟨"BAT_NOTIFY", 0xA000, 0xFF00⟩ ]

/-- The mnemonic of an instruction, as spec/opcode_table.json spells it. -/
def Instr.mnemonic (i : Instr) : String :=
  match i with
  | .reset => "RESET"
  | .edge _ => "EDGE"
  | .tick => "TICK"
  | .runDeb => "RUN_DEB"
  | .runLp => "RUN_LP"
  | .reg => "REG"
  | .kbSet _ => "KB_SET"
  | .kbClr _ => "KB_CLR"
  | .kbApply _ => "KB_APPLY"
  | .kbSer => "KB_SER"
  | .kbSend => "KB_SEND"
  | .batCompute _ _ => "BAT_COMPUTE"
  | .batNotify _ => "BAT_NOTIFY"

/-- The instruction's text in the assembler syntax of R78 (numbers in decimal). -/
def Instr.toAsm (i : Instr) : String :=
  match i with
  | .edge .A => "EDGE A"
  | .edge .B => "EDGE B"
  | .kbSet c => "KB_SET " ++ toString c.toNat
  | .kbClr c => "KB_CLR " ++ toString c.toNat
  | .kbApply m => "KB_APPLY " ++ toString m.toNat
  | .batCompute l ch => "BAT_COMPUTE " ++ toString l.toNat ++ ", " ++ toString ch.toNat
  | .batNotify l => "BAT_NOTIFY " ++ toString l.toNat
  | .reset => "RESET"
  | .tick => "TICK"
  | .runDeb => "RUN_DEB"
  | .runLp => "RUN_LP"
  | .reg => "REG"
  | .kbSer => "KB_SER"
  | .kbSend => "KB_SEND"

/-- A command word as bytes, `w[7:0]` first (R77). -/
def wordBytes (w : Word) : List Byte :=
  [w.extractLsb' 0 8, w.extractLsb' 8 8]

/-- The instruction's two bytes in a stored command stream (R77). -/
def encodeBytes (i : Instr) : List Byte :=
  wordBytes (encode i)

/-- The first command of a byte list and what follows it (R77). -/
def decodeBytes (bytes : List Byte) : Except DecodeError (Instr × List Byte) :=
  match bytes with
  | lo :: hi :: rest => (decode (hi ++ lo)).map fun i => (i, rest)
  | _ => .error .truncated

/-- The command word whose bits are `w`, numbered as spec/opcode_table.json numbers them, of which the
table gives `nbits` (16 in every row, R77). -/
def tableWord (nbits w : Nat) : Word :=
  BitVec.ofNat 16 (w % 2 ^ nbits)

/-- The instruction the decoder reads from a table word: the word is laid out as bytes in R77's order and
given to the byte decoder. -/
def decodeTableWord (nbits w : Nat) : Option Instr :=
  match decodeBytes (wordBytes (tableWord nbits w)) with
  | .ok (i, _) => some i
  | .error _ => none

end Sys2Proof
end

