-- ==== Sys2Proof/Config.lean ====
section
/-! DEFINITION. The configuration parameters of spec/00_scope.md R10, the value types of the input ports
(spec/10_state.md R40), and the FREE VALUES: what the environment answers where a run names no answer (R41). -/

namespace Sys2Proof

/-- `STATUS_LAYOUT` (R10): which order the three status bytes are sent in (R202). -/
inductive StatusLayout where
  | powerStateFirst
  | flagsFirst
deriving DecidableEq, Repr

/-- The numeric codes of the named power-state values (spec/43_battery.md R190), as raw naturals: a code
that does not fit its sub-field makes the configuration illegal (R190, R44). `CODE_PRESENT` is no
parameter: the source fixes it at 1 (R190). -/
structure Codes where
  wiredConnected       : Nat
  wiredUnknown         : Nat
  wirelessNever        : Nat
  stateCharging        : Nat
  stateActiveDischarge : Nat
  levelGood            : Nat
  levelLow             : Nat
  levelCritical        : Nat
  levelNotCharging     : Nat
  typeConstantCurrent  : Nat
  typeNotCharging      : Nat
deriving DecidableEq, Repr

/-- The configuration parameters of R10: fixed for a run, not state of the block (R44). A value of this
type may be illegal; `Config.legal` (Machine/Operands.lean) is R10's column of legal values. -/
structure Config where
  /-- `T_DEB`, in ticks -/
  tDeb              : Nat
  /-- `T_LP`, in ticks -/
  tLp               : Nat
  /-- `KEY_A`, the key code of button A -/
  keyA              : Byte
  /-- `KEY_B`, the key code of button B -/
  keyB              : Byte
  /-- `SUPPRESS_UNCHANGED` -/
  suppressUnchanged : Bool
  /-- `STATUS_LAYOUT` -/
  statusLayout      : StatusLayout
  /-- `CODE_*` -/
  codes             : Codes
  /-- `CHR_LEVEL`, an opaque identifier -/
  chrLevel          : Nat
  /-- `CHR_STATUS`, an opaque identifier -/
  chrStatus         : Nat
  /-- `CHR_KB_REPORT`, an opaque identifier -/
  chrKbReport       : Nat
  /-- `CHR_KB_BOOT`, an opaque identifier -/
  chrKbBoot         : Nat
deriving DecidableEq, Repr

/-- The protocol mode (R40). -/
inductive ProtocolMode where
  | boot
  | report
deriving DecidableEq, Repr, Inhabited

/-- A transport response (R40). The payload of `Other(e)` is opaque and only passed through (R220); a
natural number names it. -/
inductive Response where
  | ok
  | notConnected
  | other (e : Nat)
deriving DecidableEq, Repr, Inhabited

/-- FREE VALUE: the levels an operation samples when its command names none; argument: the number of the
step. No law constrains it (R41). notes/assumptions/3.md -/
opaque Config.freeLevels : Nat → PerButton Bool

/-- FREE VALUE: the protocol mode an operation reads when its command names none; argument: the number of
the step. No law constrains it (R41). notes/assumptions/3.md -/
opaque Config.freeMode : Nat → ProtocolMode

/-- FREE VALUE: the response to the `k`-th transport call of an operation whose command names none;
arguments: the number of the step and `k`. No law constrains it (R41). notes/assumptions/3.md -/
opaque Config.freeResponse : Nat → Nat → Response

end Sys2Proof
end

