-- ==== Sys2Proof/Machine/Operands.lean ====
section
/-! DEFINITION. What the operands and the configuration parameters mean: button operands, key-code classes
(spec/42_keyboard.md R150, R153), level samples, and which configurations are legal (spec/00_scope.md R10). -/

namespace Sys2Proof

/-- The value a pair of per-button values holds for button `b`. -/
def PerButton.get {α : Type} (p : PerButton α) (b : Button) : α :=
  match b with
  | .A => p.a
  | .B => p.b

/-- The pair with button `b`'s value replaced by `x`. -/
def PerButton.set {α : Type} (p : PerButton α) (b : Button) (x : α) : PerButton α :=
  match b with
  | .A => { p with a := x }
  | .B => { p with b := x }

namespace Machine

/-- The raw mask of a level sample, `lb ‖ la` (R108). -/
def rawMask (lv : PerButton Bool) : RawMask :=
  BitVec.ofBool lv.b ++ BitVec.ofBool lv.a

/-- A modifier code: 224..231 (R150). -/
def isModifier (c : Byte) : Bool :=
  224 ≤ c.toNat && c.toNat ≤ 231

/-- A normal code: 1..101 (R150; 0 is the sentinel only, conflict C6). -/
def isNormal (c : Byte) : Bool :=
  1 ≤ c.toNat && c.toNat ≤ 101

/-- A key code of this block (R150, R152). -/
def isKeyCode (c : Byte) : Bool :=
  isModifier c || isNormal c

/-- `bit(c)` (R153): the bit of a modifier code in the modifier byte. -/
def modifierBit (c : Byte) : Byte :=
  1#8 <<< (c.toNat - 224)

end Machine

/-- R190: each 2-bit code lies in 0..3 and each 1-bit code in 0..1. -/
def Codes.legal (k : Codes) : Bool :=
  k.wiredConnected ≤ 3 && k.wiredUnknown ≤ 3 && k.wirelessNever ≤ 3 && k.stateCharging ≤ 3 &&
    k.stateActiveDischarge ≤ 3 && k.levelGood ≤ 3 && k.levelLow ≤ 3 && k.levelCritical ≤ 3 &&
    k.levelNotCharging ≤ 3 && k.typeConstantCurrent ≤ 1 && k.typeNotCharging ≤ 1

/-- R10: the legal values of the parameters. -/
def Config.legal (c : Config) : Bool :=
  1 ≤ c.tDeb && c.tDeb ≤ 65535 && 1 ≤ c.tLp && c.tLp ≤ 65535 &&
    Machine.isKeyCode c.keyA && Machine.isKeyCode c.keyB && c.keyB != c.keyA && c.codes.legal &&
    decide [c.chrLevel, c.chrStatus, c.chrKbReport, c.chrKbBoot].Nodup

/-- The default codes of R190 (the spec's own, from general knowledge: D21). -/
def Codes.default : Codes :=
  { wiredConnected := 1, wiredUnknown := 2, wirelessNever := 0
    stateCharging := 1, stateActiveDischarge := 2
    levelGood := 1, levelLow := 2, levelCritical := 3, levelNotCharging := 0
    typeConstantCurrent := 1, typeNotCharging := 0 }

/-- DESIGN CHOICE (notes/assumptions/2.md): the configuration `State.reset` names. Where R10 gives a
default it is that; the open parameters have the values of spec/95_test_vectors.md section 0, and the
four identifiers are four distinct numbers. -/
def Config.initial : Config :=
  { tDeb := 20, tLp := 3000, keyA := 224, keyB := 4
    suppressUnchanged := false, statusLayout := .powerStateFirst, codes := Codes.default
    chrLevel := 0, chrStatus := 1, chrKbReport := 2, chrKbBoot := 3 }

end Sys2Proof
end

