-- ==== Sys2Proof/Machine/PowerState.lean ====
section
/-! DEFINITION. The battery packer's pure functions (spec/43_battery.md R192, R194, R202): the charge-level tier,
the power-state word and the three status bytes. -/

namespace Sys2Proof.Machine

/-- `CODE_PRESENT`, fixed at 1 by the source (R190). -/
def codePresent : Nat := 1

/-- `tier(l)` (R192): the charge-level code while charging. -/
def chargeTier (k : Codes) (l : Byte) : Nat :=
  if l.toNat < 10 then k.levelCritical
  else if l.toNat < 20 then k.levelLow
  else k.levelGood

/-- A sub-field of `width` bits holding `code`, shifted to bit `pos` of the word (R194). -/
def subField (width pos code : Nat) : Word :=
  (BitVec.ofNat width code).setWidth 16 <<< pos

/-- The six codes R194 chooses for a charge flag and a level, at their offsets (R37). -/
def packPowerState (wired wireless state level ctype : Nat) : Word :=
  subField 1 0 codePresent ||| subField 2 1 wired ||| subField 2 3 wireless ||| subField 2 5 state |||
    subField 2 7 level ||| subField 1 9 ctype

/-- `compute(l, ch)` (R194): the pair (power_state, flags). -/
def computeStatus (k : Codes) (l : Byte) (ch : Bool) : Word × Byte :=
  if ch then
    (packPowerState k.wiredConnected k.wirelessNever k.stateCharging (chargeTier k l)
      k.typeConstantCurrent, 0x00)
  else
    (packPowerState k.wiredUnknown k.wirelessNever k.stateActiveDischarge k.levelNotCharging
      k.typeNotCharging, 0x00)

/-- `statusBytes(ps, fl)` (R202, R55): the 3-byte wire value, the low byte of the 2-byte field first. -/
def statusBytes (layout : StatusLayout) (ps : Word) (fl : Byte) : List Byte :=
  match layout with
  | .powerStateFirst => [ps.extractLsb' 0 8, ps.extractLsb' 8 8, fl]
  | .flagsFirst => [fl, ps.extractLsb' 0 8, ps.extractLsb' 8 8]

end Sys2Proof.Machine
end

