-- ==== Sys2Proof/Machine/State.lean ====
section
/-! DEFINITION. The state record of spec/10_state.md R20, the model's own fields beside it (configuration, the
environment's commands and inputs, the observation), the stops, and the state after reset (R250, R251). -/

namespace Sys2Proof.Machine

/-- A timer's state (R24, R25). -/
inductive TimerState where
  /-- not scheduled -/
  | idle
  /-- counting down -/
  | armed
  /-- expired: its callback waits for the worker -/
  | queued
deriving DecidableEq, Repr

/-- A timer: the pair (`deb_state`, `deb_cnt`) of R24 or (`lp_state`, `lp_cnt`) of R25. -/
structure Timer where
  state : TimerState
  cnt   : Count
deriving DecidableEq, Repr

/-- The keyboard encoder's state: `ctrl_keys_state` (R31) and `keys[0..5]` (R32). -/
structure Keyboard where
  ctrl : Byte
  keys : Vector Byte 6
deriving DecidableEq, Repr

/-- The battery packer's state: `batt_level` (R33), `batt_charging` (R34), `power_state` and `flags` (R35). -/
structure Battery where
  level      : Byte
  charging   : Bool
  powerState : Word
  flags      : Byte
deriving DecidableEq, Repr

/-- The result codes of R220. -/
inductive ResultCode where
  | ok
  | capacityExhausted
  | keyNotFound
  | invalidBatteryLevel
  | transportOther
deriving DecidableEq, Repr

/-- The result an operation returns (R220): a code, a detail byte and, for TRANSPORT_OTHER only, the
transport's payload. -/
structure Result where
  code    : ResultCode
  detail  : Byte
  payload : Option Nat
deriving DecidableEq, Repr

/-- An output event (R42). -/
inductive Event where
  /-- `Button(m)` -/
  | button (m : ButtonMask)
  /-- `Report(b0..b7)`: the bytes, byte 0 first -/
  | report (bytes : List Byte)
  /-- `Notify(chr, bytes, resp)` -/
  | notify (chr : Nat) (bytes : List Byte) (resp : Response)
deriving DecidableEq, Repr

/-- The inputs the environment presents with a command (R40, R41). What it names is drawn; what it leaves
out is a free value of Config. -/
structure Inputs where
  levels    : Option (PerButton Bool)
  mode      : Option ProtocolMode
  /-- the responses of the operation's transport calls, in call order (R78) -/
  responses : List Response
deriving DecidableEq, Repr

/-- One entry of the command stream: a command word (R71) and the inputs presented with it. -/
structure Command where
  word   : Word
  inputs : Inputs
deriving DecidableEq, Repr

/-- The machine. The fields `now` to `bat` are the block's state record, exactly R20's. The fields `cfg` to
`results` are the MODEL's own, not the block's state (R20, R42, R44, R63): RESET keeps them. -/
structure State where
  /-- `now` (R23) -/
  now            : Time
  /-- `deb_state`, `deb_cnt` (R24) -/
  deb            : Timer
  /-- `raw_level[A]`, `raw_level[B]` (R27) -/
  rawLevel       : PerButton Bool
  /-- `last_change_time[A]`, `last_change_time[B]` (R28) -/
  lastChangeTime : PerButton Time
  /-- `consumer_reg` (R29) -/
  consumerReg    : Bool
  /-- `last_settled` (R30) -/
  lastSettled    : RawMask
  /-- `lp_state`, `lp_cnt` (R25) -/
  lp             : Timer
  /-- `ctrl_keys_state`, `keys[0..5]` (R31, R32) -/
  kb             : Keyboard
  /-- `batt_level`, `batt_charging`, `power_state`, `flags` (R33 to R35) -/
  bat            : Battery
  /-- the configuration the run is made with (R10, R44) -/
  cfg            : Config
  /-- the commands the environment has yet to present, first to come first (R63, R240) -/
  commands       : List Command
  /-- the inputs presented with the command at hand (R41) -/
  inputs         : Inputs
  /-- how many commands have been presented: the argument of the free values -/
  presented      : Nat
  /-- the output trace, in order of emission (R42) -/
  trace          : List Event
  /-- the results returned, in order (R42, R240) -/
  results        : List Result
deriving DecidableEq, Repr

/-- A stop that is no refusal. No operation of the block faults: its errors are results (R222) and it has no
trap (R227). -/
inductive Fault where
  /-- Raised by `step` alone, when the environment has no further command: the run has ended (R240).
  Safe: nothing of the block happens, and no operation is left out. -/
  | endOfRun
deriving DecidableEq, Repr

/-- A refusal (R229): the operation has no meaning, the step does not happen and the run is marked refused.
Each is the spec's own and safe: a claim about a refused run says nothing about the hardware. -/
inductive Refusal where
  /-- An arm of `exec` with no meaning yet; raised by none. -/
  | notModelled (mnemonic : String)
  /-- Raised by `step` on an illegal command word (R75, R229). -/
  | illegalCommand (w : Word) (why : DecodeError)
  /-- Raised by every operation under an illegal configuration (R44, R229, R253). -/
  | illegalConfiguration
  /-- Raised by RUN_DEB when the debounce timer is not QUEUED (R108, R229). -/
  | debounceNotQueued
  /-- Raised by RUN_LP when the long-press timer is not QUEUED (R134, R229). -/
  | longPressNotQueued
  /-- Raised by KB_SET and KB_CLR on an operand that is no key code of the block (R152, R229). -/
  | notAKeyCode (c : Byte)
  /-- Raised on reading the reserved encoding 0b11 of a timer state (R26). -/
  | reservedTimerState
deriving DecidableEq, Repr

/-- Every input left to the free values. -/
def Inputs.free : Inputs :=
  { levels := none, mode := none, responses := [] }

/-- The keyboard encoder after reset: no modifier, six empty slots (R31, R32). -/
def Keyboard.reset : Keyboard :=
  { ctrl := 0x00, keys := Vector.replicate 6 0x00 }

/-- The battery packer after reset under the codes `k` (R33 to R35): level 100, not charging, and the status
`compute(100, false)`. -/
def Battery.reset (k : Codes) : Battery :=
  { level := 100, charging := false
    powerState := (computeStatus k 100 false).1, flags := (computeStatus k 100 false).2 }

/-- The machine right after reset: the block's fields at the values of R20 and R250, the configuration
`Config.initial` (notes/assumptions/2.md), no command presented, nothing observed. -/
def State.reset : State :=
  { now := 0
    deb := { state := .idle, cnt := 0 }
    rawLevel := { a := false, b := false }
    lastChangeTime := { a := 0, b := 0 }
    consumerReg := false
    lastSettled := 0b00
    lp := { state := .idle, cnt := 0 }
    kb := Keyboard.reset
    bat := Battery.reset Config.initial.codes
    cfg := Config.initial
    commands := []
    inputs := Inputs.free
    presented := 0
    trace := []
    results := [] }

end Sys2Proof.Machine
end

