-- ==== Sys2Proof/Machine/Ops.lean ====
section
/-! DEFINITION. The named operations every meaning is written with: the configuration guard and the end of an
operation, the draws of spec/10_state.md R41, the output trace, the two timers, the key slots, and boot. The block has
no memory (spec/20_memory.md R50) and no trap (spec/60_exceptions.md R227), so there is no memory access, no exception entry
and no return from one: an error is a result (R222). -/

namespace Sys2Proof.Machine

/-- What an operation answers. -/
abbrev StepOutcome : Type := Host.Outcome State Fault Refusal

/-! ## The beginning and the end of an operation -/

/-- R44, R229, R253: under an illegal configuration every operation is refused. -/
def guarded (s : State) (k : StepOutcome) : StepOutcome :=
  if s.cfg.legal then k else .refused .illegalConfiguration

/-- The state with `r` added to the results (R220, R240). -/
def State.record (s : State) (r : Result) : State :=
  { s with results := s.results ++ [r] }

/-- The end of an operation, for `return` and `raise` alike (R13, R220, R222): its result is recorded and the machine
goes on. -/
def finish (r : Result) (s : State) : StepOutcome :=
  .next (s.record r)

/-- `emit E` (R13, R42): the event is appended to the output trace. -/
def State.emit (s : State) (e : Event) : State :=
  { s with trace := s.trace ++ [e] }

/-- The events a condition puts on the trace: `e` alone, or none. -/
def eventIf (p : Bool) (e : Event) : List Event :=
  if p then [e] else []

/-- `if p then emit E`. -/
def State.emitIf (s : State) (p : Bool) (e : Event) : State :=
  { s with trace := s.trace ++ eventIf p e }

/-! ## Draws (R41) -/

/-- The levels of A and B an operation samples, in one draw (R41, D35). -/
def State.levels (s : State) : PerButton Bool :=
  s.inputs.levels.getD (Config.freeLevels s.presented)

/-- The protocol mode an operation reads (R41). -/
def State.protocolMode (s : State) : ProtocolMode :=
  s.inputs.mode.getD (Config.freeMode s.presented)

/-- The response to the operation's `k`-th transport call, counted from 0 (R41, R78). -/
def State.response (s : State) (k : Nat) : Response :=
  s.inputs.responses[k]?.getD (Config.freeResponse s.presented k)

/-! ## The command stream (R63, R77) -/

/-- The environment presents the inputs of an operation: they become the inputs at hand, and what they leave open is
drawn afresh. -/
def State.give (s : State) (inp : Inputs) : State :=
  { s with inputs := inp, presented := s.presented + 1 }

/-- The environment presents a command: it leaves the stream, with its inputs at hand. -/
def State.present (s : State) (c : Command) (rest : List Command) : State :=
  { s.give c.inputs with commands := rest }

/-- The next command word and the state in which its operation runs, if the environment has one. -/
def fetch (s : State) : Option (Word × State) :=
  match s.commands with
  | [] => none
  | c :: rest => some (c.word, s.present c rest)

/-! ## Timers -/

/-- R26: the 2-bit encoding of a timer state. -/
def TimerState.encode (t : TimerState) : BitVec 2 :=
  match t with
  | .idle => 0b00
  | .armed => 0b01
  | .queued => 0b10

/-- R26: the timer state a 2-bit value encodes; 0b11 is refused. -/
def TimerState.ofBits (b : BitVec 2) : Except Refusal TimerState :=
  match b.toNat with
  | 0 => .ok .idle
  | 1 => .ok .armed
  | 2 => .ok .queued
  | _ => .error .reservedTimerState

/-- The timer armed, or armed afresh, for `ticks` ticks (R100, R108). -/
def Timer.armedFor (ticks : Nat) : Timer :=
  { state := .armed, cnt := BitVec.ofNat 16 ticks }

/-- The timer not scheduled: reset, or cancelled (R108, R250). -/
def Timer.off : Timer :=
  { state := .idle, cnt := 0 }

/-- The timer's callback has been taken by the worker: `state <- IDLE` alone, as R108 and R134 write it. -/
def Timer.taken (t : Timer) : Timer :=
  { t with state := .idle }

/-- One TICK of a timer (R104). DEDUCED (notes/assumptions/6.md): at a count of 0 while ARMED, which no run reaches, the
16-bit subtraction wraps. -/
def Timer.tick (t : Timer) : Timer :=
  if t.state = .armed then
    if t.cnt = 1 then { state := .queued, cnt := 0 } else { t with cnt := t.cnt - 1 }
  else t

/-- `raw_level[A] <- la; raw_level[B] <- lb` (R108, R134). -/
def State.sample (s : State) (lv : PerButton Bool) : State :=
  { s with rawLevel := lv }

/-! ## Key slots (R32, R153) -/

/-- `find(c)` (R153): the least slot holding `c`. With `c = 0` it is `firstEmpty()`. -/
def Keyboard.find (k : Keyboard) (c : Byte) : Option (Fin 6) :=
  [0, 1, 2, 3, 4, 5].find? fun i => k.keys[i] == c

/-- `firstEmpty()` (R153): the least empty slot. -/
def Keyboard.firstEmpty (k : Keyboard) : Option (Fin 6) :=
  k.find 0

/-- `keys[i] <- c`. -/
def Keyboard.setSlot (k : Keyboard) (i : Fin 6) (c : Byte) : Keyboard :=
  { k with keys := k.keys.set i c }

/-- `set(c)` (R153, R155): the result code and the encoder's state after it. -/
def Keyboard.press (k : Keyboard) (c : Byte) : ResultCode × Keyboard :=
  if isModifier c then (.ok, { k with ctrl := k.ctrl ||| modifierBit c })
  else if (k.find c).isSome then (.ok, k)
  else
    match k.firstEmpty with
    | none => (.capacityExhausted, k)
    | some i => (.ok, k.setSlot i c)

/-- `clear(c)` (R153, R157): the result code and the encoder's state after it. -/
def Keyboard.release (k : Keyboard) (c : Byte) : ResultCode × Keyboard :=
  if isModifier c then (.ok, { k with ctrl := k.ctrl &&& ~~~modifierBit c })
  else
    match k.find c with
    | none => (.keyNotFound, k)
    | some i => (.ok, k.setSlot i 0)

/-- One key of KB_APPLY (R160): `set` when its mask bit is 1, `clear` when it is 0. -/
def Keyboard.applyKey (k : Keyboard) (down : Bool) (c : Byte) : ResultCode × Keyboard :=
  if down then k.press c else k.release c

/-- `serialize(s)` (R170): the 8-byte report, byte 0 first. -/
def Keyboard.serialize (k : Keyboard) : List Byte :=
  [k.ctrl, 0x00] ++ k.keys.toList

/-! ## Battery status (R195) -/

/-- The battery state BAT_COMPUTE leaves: every field overwritten (R35, R195). -/
def Battery.compute (k : Codes) (l : Byte) (ch : Bool) : Battery :=
  { level := l, charging := ch, powerState := (computeStatus k l ch).1, flags := (computeStatus k l ch).2 }

/-! ## Transport calls (R60, R172, R200) -/

/-- One `gatt_notify(chr, bytes)`: the operation's `k`-th call, whose response is drawn and whose event is
emitted (R42, R60). -/
def State.notify (s : State) (k : Nat) (chr : Nat) (bytes : List Byte) : State :=
  s.emit (.notify chr bytes (s.response k))

/-! ## Boot (R250) -/

/-- Every field of the block at its reset value; the configuration, the environment's commands and inputs, the trace and
the results are kept (R42, R250). -/
def State.boot (s : State) : State :=
  { s with
    now := 0
    deb := Timer.off
    lp := Timer.off
    rawLevel := { a := false, b := false }
    lastChangeTime := { a := 0, b := 0 }
    consumerReg := false
    lastSettled := 0b00
    kb := Keyboard.reset
    bat := Battery.reset s.cfg.codes }

end Sys2Proof.Machine
end

