-- ==== Sys2Proof/Machine/Flags.lean ====
section
/-! DEFINITION. The block has no flags register: every operation writes no flag (spec/40_debounce.md, its template). What an
operation reports is its RESULT (spec/60_exceptions.md R220); this file computes results. -/

namespace Sys2Proof.Machine

/-- The code of R220's table. -/
def ResultCode.toByte (r : ResultCode) : Byte :=
  match r with
  | .ok => 0x00
  | .capacityExhausted => 0x01
  | .keyNotFound => 0x02
  | .invalidBatteryLevel => 0x03
  | .transportOther => 0x04

/-- A result with detail 0x00 and no payload: every operation but KB_APPLY and a failed transport call (R220). -/
def Result.plain (r : ResultCode) : Result :=
  { code := r, detail := 0x00, payload := none }

/-- The result OK. -/
def Result.ok : Result :=
  Result.plain .ok

/-- KB_APPLY's result (R160): the first of key A's and key B's codes that is not OK, with both in the detail byte. -/
def Result.ofApply (rA rB : ResultCode) : Result :=
  { code := if rA ≠ .ok then rA else rB
    detail := (rB.toByte <<< 4) ||| rA.toByte
    payload := none }

/-- The result of one transport response: NotConnected is success, `Other(e)` is TRANSPORT_OTHER(e) (R172, R220). -/
def Result.ofResponse (r : Response) : Result :=
  match r with
  | .ok => Result.ok
  | .notConnected => Result.ok
  | .other e => { code := .transportOther, detail := 0x00, payload := some e }

/-- The result of BAT_NOTIFY's two calls: the level call's failure before the status call's (R200). -/
def Result.ofResponses (r1 r2 : Response) : Result :=
  match r1 with
  | .other e => Result.ofResponse (.other e)
  | .ok => Result.ofResponse r2
  | .notConnected => Result.ofResponse r2

end Sys2Proof.Machine
end

