-- ==== Sys2Proof/Machine/BatteryOps.lean ====
section
/-! DEFINITION. The battery packer's operations (spec/43_battery.md): BAT_COMPUTE, BAT_NOTIFY. -/

namespace Sys2Proof.Machine

/-- BAT_COMPUTE l, ch (R195): the whole battery state is overwritten, for every 8-bit level (R198). -/
def execBatCompute (l : Byte) (ch : Bool) (s : State) : StepOutcome :=
  guarded s (finish Result.ok { s with bat := Battery.compute s.cfg.codes l ch })

/-- BAT_NOTIFY l (R200): above 100 no call is made; else both calls are, the level of the operand first and then the
status of the state (R204). -/
def execBatNotify (l : Byte) (s : State) : StepOutcome :=
  guarded s <|
    if 100 < l.toNat then finish (Result.plain .invalidBatteryLevel) s
    else
      finish (Result.ofResponses (s.response 0) (s.response 1))
        ((s.notify 0 s.cfg.chrLevel [l]).notify 1 s.cfg.chrStatus
          (statusBytes s.cfg.statusLayout s.bat.powerState s.bat.flags))

end Sys2Proof.Machine
end

