-- ==== Sys2Proof/Machine/Debounce.lean ====
section
/-! DEFINITION. The debounce engine's operations (spec/40_debounce.md): EDGE, TICK, RUN_DEB, REG. -/

namespace Sys2Proof.Machine

/-- EDGE b (R100): the debounce timer is armed afresh from any state, and the button's edge time is `now`. The
long-press timer is not touched (D8). -/
def execEdge (b : Button) (s : State) : StepOutcome :=
  guarded s <| finish Result.ok
    { s with deb := Timer.armedFor s.cfg.tDeb, lastChangeTime := s.lastChangeTime.set b s.now }

/-- TICK (R104): `now` wraps modulo 2^32, and both timers are tested against their values before this TICK. -/
def execTick (s : State) : StepOutcome :=
  guarded s <| finish Result.ok { s with now := s.now + 1, deb := s.deb.tick, lp := s.lp.tick }

/-- R108, R110: does a settlement with this raw mask send its event? -/
def settlementSends (s : State) (raw : RawMask) : Bool :=
  !s.cfg.suppressUnchanged || raw != s.lastSettled

/-- The long-press timer after a settlement (R108, R130): armed or armed afresh by 0b11, cancelled by any other mask. -/
def longPressAfter (s : State) (raw : RawMask) : Timer :=
  if raw = 0b11 then Timer.armedFor s.cfg.tLp else Timer.off

/-- A settlement on the sample `lv` (R108). An event without a consumer is discarded (R112). -/
def settle (s : State) (lv : PerButton Bool) : State :=
  ({ s.sample lv with
    deb := s.deb.taken
    lastSettled := rawMask lv
    lp := longPressAfter s (rawMask lv) } : State).emitIf
      (settlementSends s (rawMask lv) && s.consumerReg) (.button (0#1 ++ rawMask lv))

/-- RUN_DEB (R108): refused unless the debounce timer is QUEUED (D31). -/
def execRunDeb (s : State) : StepOutcome :=
  guarded s <|
    if s.deb.state = .queued then finish Result.ok (settle s s.levels) else .refused .debounceNotQueued

/-- REG (R116): a consumer is registered; there is no unregister (D11). -/
def execReg (s : State) : StepOutcome :=
  guarded s (finish Result.ok { s with consumerReg := true })

end Sys2Proof.Machine
end

