-- ==== Sys2Proof/Machine/KeyboardOps.lean ====
section
/-! DEFINITION. The HID keyboard encoder's operations (spec/42_keyboard.md): KB_SET, KB_CLR, KB_APPLY, KB_SER, KB_SEND. -/

namespace Sys2Proof.Machine

/-- KB_SET c (R155): refused on a code that is no key code of the block (R152). -/
def execKbSet (c : Byte) (s : State) : StepOutcome :=
  guarded s <|
    if isKeyCode c then finish (Result.plain (s.kb.press c).1) { s with kb := (s.kb.press c).2 }
    else .refused (.notAKeyCode c)

/-- KB_CLR c (R157): refused on a code that is no key code of the block (R152). -/
def execKbClr (c : Byte) (s : State) : StepOutcome :=
  guarded s <|
    if isKeyCode c then finish (Result.plain (s.kb.release c).1) { s with kb := (s.kb.release c).2 }
    else .refused (.notAKeyCode c)

/-- KB_APPLY m (R160): key A, then key B on the state key A left; bit 2 is ignored; neither undoes the other. DEDUCED
(notes/assumptions/8.md): where R162's inference is false under this pseudocode, the pseudocode is followed. -/
def execKbApply (m : ButtonMask) (s : State) : StepOutcome :=
  let stepA := s.kb.applyKey (m.getLsbD 0) s.cfg.keyA
  let stepB := stepA.2.applyKey (m.getLsbD 1) s.cfg.keyB
  guarded s (finish (Result.ofApply stepA.1 stepB.1) { s with kb := stepB.2 })

/-- KB_SER (R170): the report is emitted; the state is unchanged. -/
def execKbSer (s : State) : StepOutcome :=
  guarded s (finish Result.ok (s.emit (.report s.kb.serialize)))

/-- The characteristic the protocol mode selects (R172). -/
def reportCharacteristic (c : Config) (m : ProtocolMode) : Nat :=
  match m with
  | .boot => c.chrKbBoot
  | .report => c.chrKbReport

/-- KB_SEND (R172): the report is handed to the dispatcher, the same bytes in both modes; NotConnected is success. -/
def execKbSend (s : State) : StepOutcome :=
  guarded s <| finish (Result.ofResponse (s.response 0))
    (s.notify 0 (reportCharacteristic s.cfg s.protocolMode) s.kb.serialize)

end Sys2Proof.Machine
end

