-- ==== Sys2Proof/Machine/LongPress.lean ====
section
/-! DEFINITION. The long-press timer's own operation (spec/41_longpress.md): RUN_LP. -/

namespace Sys2Proof.Machine

/-- A long-press expiry on the fresh sample `lv` (R134, R135): `Button(0b111)` if both levels are active and a consumer
is registered. -/
def expire (s : State) (lv : PerButton Bool) : State :=
  ({ s.sample lv with lp := s.lp.taken } : State).emitIf (lv.a && lv.b && s.consumerReg) (.button 0b111)

/-- RUN_LP (R134): refused unless the long-press timer is QUEUED (D31). -/
def execRunLp (s : State) : StepOutcome :=
  guarded s <|
    if s.lp.state = .queued then finish Result.ok (expire s s.levels) else .refused .longPressNotQueued

end Sys2Proof.Machine
end

