-- ==== Sys2Proof/Machine/Reset.lean ====
section
/-! DEFINITION. RESET (spec/70_reset_and_hazards.md). -/

namespace Sys2Proof.Machine

/-- RESET (R250): every field of the block takes its reset value; both timers are cancelled; the trace is kept. -/
def execReset (s : State) : StepOutcome :=
  guarded s (finish Result.ok s.boot)

end Sys2Proof.Machine
end

