-- ==== Sys2Proof/Machine/Dispatch.lean ====
section
/-! DEFINITION. One arm per operation of spec/30_encoding.md R70, each a direct call of its meaning. -/

namespace Sys2Proof.Machine

def exec (i : Instr) (s : State) : Host.Outcome State Fault Refusal :=
  match i with
  | .reset => Sys2Proof.Machine.execReset s
  | .edge b => Sys2Proof.Machine.execEdge b s
  | .tick => Sys2Proof.Machine.execTick s
  | .runDeb => Sys2Proof.Machine.execRunDeb s
  | .runLp => Sys2Proof.Machine.execRunLp s
  | .reg => Sys2Proof.Machine.execReg s
  | .kbSet c => Sys2Proof.Machine.execKbSet c s
  | .kbClr c => Sys2Proof.Machine.execKbClr c s
  | .kbApply m => Sys2Proof.Machine.execKbApply m s
  | .kbSer => Sys2Proof.Machine.execKbSer s
  | .kbSend => Sys2Proof.Machine.execKbSend s
  | .batCompute l ch => Sys2Proof.Machine.execBatCompute l ch s
  | .batNotify l => Sys2Proof.Machine.execBatNotify l s

end Sys2Proof.Machine
end

