-- ==== Sys2Proof/Machine/Step.lean ====
section
/-! DEFINITION. One step: the environment presents its next command, and the block performs that operation (spec/30_encoding.md
R70, R74; spec/60_exceptions.md R229, R240). -/

namespace Sys2Proof.Machine

/-- One step. An illegal word is refused (R75); where the environment has no further command the run has ended (R240). -/
def step (s : State) : Host.Outcome State Fault Refusal :=
  match fetch s with
  | none => .fault .endOfRun
  | some (w, s') =>
    match decode w with
    | .ok i => exec i s'
    | .error why => .refused (.illegalCommand w why)

/-- `s` with a command placed in front of the stream, so that the next step performs it; every input it draws is
free (notes/assumptions/4.md). -/
def State.withFetchWord (s : State) (nbits w : Nat) : State :=
  { s with commands := { word := tableWord nbits w, inputs := Inputs.free } :: s.commands }

end Sys2Proof.Machine
end

