-- ==== Sys2Proof/Machine/Agents.lean ====
section
/-! DEFINITION. The agents of spec/60_exceptions.md R232 and which of them issues an operation. Every interleaving of
them is a command stream (spec/20_memory.md R52, R53). -/

namespace Sys2Proof.Machine

/-- The four agents (R232). -/
inductive Agent where
  | interruptContext
  | timeBase
  | worker
  /-- the BLE stack context: it issues nothing, receives `Notify` and answers with a response -/
  | bleHost
deriving DecidableEq, Repr

/-- The agent that issues an operation (R52, R232); RESET is boot, which R232 gives to none. -/
def issuer (i : Instr) : Option Agent :=
  match i with
  | .reset => none
  | .edge _ => some .interruptContext
  | .tick => some .timeBase
  | .runDeb => some .worker
  | .runLp => some .worker
  | .reg => some .worker
  | .kbSet _ => some .worker
  | .kbClr _ => some .worker
  | .kbApply _ => some .worker
  | .kbSer => some .worker
  | .kbSend => some .worker
  | .batCompute _ _ => some .worker
  | .batNotify _ => some .worker

end Sys2Proof.Machine
end

