-- ==== Sys2Proof/Machine/Assembly.lean ====
section
/-! DEFINITION. Programs in the notation of spec/30_encoding.md R78: operations, the pseudo-instruction `TICK*n`, and the input
annotations, and the command stream they stand for. -/

namespace Sys2Proof.Machine

/-- One line of a program (R78). -/
inductive AsmLine where
  /-- an operation -/
  | op (i : Instr)
  /-- `TICK*n` -/
  | ticks (n : Nat)
  /-- `@A=… B=…`: the levels from here on -/
  | levels (lv : PerButton Bool)
  /-- `@mode=…`: the protocol mode from here on -/
  | mode (m : ProtocolMode)
  /-- `@resp=…`: the responses of the next operation's calls -/
  | responses (rs : List Response)
deriving DecidableEq, Repr

/-- The commands of a program, given the annotations in force before it (R78). The responses of `@resp` are those of
the next operation alone. DESIGN CHOICE (notes/assumptions/13.md): an annotation of one kind ends no other kind, so the
levels hold until the next `@A`, `@B` line and the mode until the next `@mode`. -/
def assemble (inp : Inputs) (p : List AsmLine) : List Command :=
  match p with
  | [] => []
  | .op i :: p => { word := encode i, inputs := inp } :: assemble { inp with responses := [] } p
  | .ticks n :: p =>
    List.replicate n { word := encode .tick, inputs := { inp with responses := [] } } ++
      assemble { inp with responses := [] } p
  | .levels lv :: p => assemble { inp with levels := some lv } p
  | .mode m :: p => assemble { inp with mode := some m } p
  | .responses rs :: p => assemble { inp with responses := rs } p

/-- The program placed behind the commands the environment has yet to present. -/
def State.load (s : State) (p : List AsmLine) : State :=
  { s with commands := s.commands ++ assemble Inputs.free p }

end Sys2Proof.Machine
end

