-- ==== Sys2Proof/Safety.lean ====
section
/-! DEFINITION. What claims about the block are stated in: the invariants of spec/10_state.md R43, the legal output events
(R36, R60), runs of operations (spec/60_exceptions.md R240), and the access table of R38. -/

namespace Sys2Proof.Machine

/-! ## Invariants (R43) -/

/-- R43(1), R43(2): the counter is 1..`ticks` while ARMED and 0 otherwise. -/
abbrev Timer.Disciplined (t : Timer) (ticks : Nat) : Prop :=
  (t.state = .armed ∧ 1 ≤ t.cnt.toNat ∧ t.cnt.toNat ≤ ticks) ∨ (t.state ≠ .armed ∧ t.cnt = 0)

/-- R43(3), R32: every slot is empty or holds a normal code, and no nonzero code is in two slots. -/
abbrev Keyboard.SlotsSound (k : Keyboard) : Prop :=
  (∀ i : Fin 6, k.keys[i] = 0 ∨ isNormal k.keys[i]) ∧
    ∀ i j : Fin 6, k.keys[i] ≠ 0 → k.keys[i] = k.keys[j] → i = j

/-- R43(4), R43(5): `flags` is 0, `power_state[15:10]` is 0, and the status is that of the level and the charge flag. -/
abbrev Battery.Consistent (b : Battery) (k : Codes) : Prop :=
  b.flags = 0 ∧ b.powerState.extractLsb' 10 6 = 0 ∧ b.powerState = (computeStatus k b.level b.charging).1

/-- The five invariants of R43. -/
abbrev State.Inv (s : State) : Prop :=
  s.deb.Disciplined s.cfg.tDeb ∧ s.lp.Disciplined s.cfg.tLp ∧ s.kb.SlotsSound ∧
    s.bat.Consistent s.cfg.codes

/-! ## Output events (R36, R60) -/

/-- An event the block may emit: a ButtonMask of R36, a report of 8 bytes with byte 1 zero (R170), or a
hand-over of 8, 1 or 3 bytes to the characteristic that takes so many (R60). -/
abbrev Event.Legal (c : Config) (e : Event) : Prop :=
  match e with
  | .button m => m = 0b000 ∨ m = 0b001 ∨ m = 0b010 ∨ m = 0b011 ∨ m = 0b111
  | .report bytes => bytes.length = 8 ∧ bytes[1]? = some 0
  | .notify chr bytes _ =>
    ((chr = c.chrKbReport ∨ chr = c.chrKbBoot) ∧ bytes.length = 8) ∨
      (chr = c.chrLevel ∧ bytes.length = 1) ∨ (chr = c.chrStatus ∧ bytes.length = 3)

/-- Every event of the output trace is one the block may emit. -/
abbrev State.TraceLegal (s : State) : Prop :=
  ∀ e ∈ s.trace, e.Legal s.cfg

/-- "A test-only inverse mapping of key codes" (R166): does the report show key `c` pressed? -/
def reportShows (bytes : List Byte) (c : Byte) : Bool :=
  if isModifier c then (bytes.headD 0).getLsbD (c.toNat - 224) else (bytes.drop 2).contains c

/-! ## Runs of operations (R240) -/

/-- An operation as the environment presents it, with the inputs it draws. -/
abbrev Presented : Type := Instr × Inputs

/-- A run: the operations in order, each on the state the one before it left, ending at the first stop (R53, R229, R240). -/
def runOps (ops : List Presented) (s : State) : StepOutcome :=
  match ops with
  | [] => .next s
  | (i, inp) :: rest =>
    match exec i (s.give inp) with
    | .next t => runOps rest t
    | .fault f => .fault f
    | .refused r => .refused r

/-- How many of the operations are TICKs. -/
def ticksIn (ops : List Presented) : Nat :=
  ops.countP fun op => op.1 = .tick

/-- `n` TICKs (R78: `TICK*n`). -/
def ticking (n : Nat) : List Presented :=
  List.replicate n (.tick, Inputs.free)

/-- Edges, each followed by the number of TICKs beside it. -/
def edges (bs : List (Button × Nat)) : List Presented :=
  bs.flatMap fun bg => (.edge bg.1, Inputs.free) :: ticking bg.2

/-- An operation presented as a command. -/
def Presented.toCommand (op : Presented) : Command :=
  { word := encode op.1, inputs := op.2 }

/-- How many RUN_DEBs among the operations name a sample with both levels active: the arming settlements (R138). -/
def armingsIn (ops : List Presented) : Nat :=
  ops.countP fun op => op.1 = .runDeb ∧ op.2.levels = some { a := true, b := true }

/-- How many long-press events a trace holds. -/
def longPressesIn (trace : List Event) : Nat :=
  trace.count (.button 0b111)

/-! ## KB_APPLY of a mask already applied (R162) -/

/-- R162: the code a key's half of a second KB_APPLY of the same mask returns, after `first` the first time: a key that was
set repeats its code, a modifier that was cleared gives OK, and a normal key that was cleared KEY_NOT_FOUND. -/
def codeWhenRepeated (down : Bool) (c : Byte) (first : ResultCode) : ResultCode :=
  if down then first else if isModifier c then .ok else .keyNotFound

/-- The one case in which R162 does not hold of R160's pseudocode (notes/assumptions/8.md): a first KB_APPLY finds no slot
for key A and then frees key B's. -/
abbrev Keyboard.FreesSlotTooLate (k : Keyboard) (c : Config) (m : ButtonMask) : Prop :=
  m.getLsbD 0 = true ∧ m.getLsbD 1 = false ∧ isNormal c.keyA ∧ isNormal c.keyB ∧
    (∀ i : Fin 6, k.keys[i] ≠ c.keyA ∧ k.keys[i] ≠ 0) ∧ ∃ i : Fin 6, k.keys[i] = c.keyB

/-! ## Access by operation (R38) -/

/-- The rows of R38's table. -/
inductive Field where
  | now
  | debTimer
  | rawLevel
  | lastChangeTime
  | consumerReg
  | lastSettled
  | lpTimer
  | ctrlKeysState
  | keys
  | battLevelCharging
  | powerStateFlags
deriving DecidableEq, Repr

/-- R38's table: does an operation's row and column hold a `w`? RESET writes every field. -/
def mayWrite (i : Instr) (f : Field) : Bool :=
  match i with
  | .reset => true
  | .edge _ => f = .debTimer || f = .lastChangeTime
  | .tick => f = .now || f = .debTimer || f = .lpTimer
  | .runDeb => f = .debTimer || f = .rawLevel || f = .lastSettled || f = .lpTimer
  | .runLp => f = .rawLevel || f = .lpTimer
  | .reg => f = .consumerReg
  | .kbSet _ => f = .ctrlKeysState || f = .keys
  | .kbClr _ => f = .ctrlKeysState || f = .keys
  | .kbApply _ => f = .ctrlKeysState || f = .keys
  | .kbSer => false
  | .kbSend => false
  | .batCompute _ _ => f = .battLevelCharging || f = .powerStateFlags
  | .batNotify _ => false

/-- R38's table: does an operation's row and column hold an `r`? -/
def mayRead (i : Instr) (f : Field) : Bool :=
  match i with
  | .reset => false
  | .edge _ => f = .now
  | .tick => f = .now || f = .debTimer || f = .lpTimer
  | .runDeb => f = .debTimer || f = .consumerReg || f = .lastSettled
  | .runLp => f = .consumerReg || f = .lpTimer
  | .reg => false
  | .kbSet _ => f = .ctrlKeysState || f = .keys
  | .kbClr _ => f = .ctrlKeysState || f = .keys
  | .kbApply _ => f = .ctrlKeysState || f = .keys
  | .kbSer => f = .ctrlKeysState || f = .keys
  | .kbSend => f = .ctrlKeysState || f = .keys
  | .batCompute _ _ => false
  | .batNotify _ => f = .powerStateFlags

/-- Two states agree on a row of R38's table. -/
def SameField (f : Field) (s t : State) : Prop :=
  match f with
  | .now => t.now = s.now
  | .debTimer => t.deb = s.deb
  | .rawLevel => t.rawLevel = s.rawLevel
  | .lastChangeTime => t.lastChangeTime = s.lastChangeTime
  | .consumerReg => t.consumerReg = s.consumerReg
  | .lastSettled => t.lastSettled = s.lastSettled
  | .lpTimer => t.lp = s.lp
  | .ctrlKeysState => t.kb.ctrl = s.kb.ctrl
  | .keys => t.kb.keys = s.kb.keys
  | .battLevelCharging => t.bat.level = s.bat.level ∧ t.bat.charging = s.bat.charging
  | .powerStateFlags => t.bat.powerState = s.bat.powerState ∧ t.bat.flags = s.bat.flags

end Sys2Proof.Machine
end

