-- ==== Sys2Proof/Certificates/Slice0/Obligations.lean ====
section
/-! DEFINITION. The statements about the model, from the numbered rules of spec/. Each docstring names the rules. -/

open Sys2Proof Sys2Proof.Machine

/-! ## Command words (spec/30_encoding.md) -/

/-- R73, R78: decoding the word of an instruction gives the instruction, with every operand at every value. -/
def Obligations.DecodeOfEncodeIsInstruction : Prop :=
  ∀ i : Instr, decode (encode i) = .ok i

/-- R73, R78: a word that decodes is the word of the instruction it decodes to, so no two words share a meaning. -/
def Obligations.EncodeOfDecodeIsWord : Prop :=
  ∀ (w : Word) (i : Instr), decode w = .ok i → encode i = w

/-- R73: a word decodes to the operation of the one row whose (w & mask) = match, and at most one row matches. -/
def Obligations.WordDecodesToItsOneOpcodeRow : Prop :=
  (∀ (w : Word) (i : Instr), decode w = .ok i → ∃ r ∈ opcodeRows, r.Matches w ∧ r.mnemonic = i.mnemonic) ∧
  (∀ (w : Word), ∀ r ∈ opcodeRows, r.Matches w → ∃ i, decode w = .ok i ∧ i.mnemonic = r.mnemonic) ∧
  (∀ (w : Word), ∀ r ∈ opcodeRows, ∀ r' ∈ opcodeRows, r.Matches w → r'.Matches w → r = r')

/-- R75: the illegal words are the listed ones, and no others; a step that is presented one is refused. The class is
`w / 4096`, the low twelve bits are `w % 4096`. -/
def Obligations.IllegalWordsAreTheListedOnes : Prop :=
  (∀ w : Word, (∃ e, decode w = .error e) ↔
    let cls := w.toNat / 4096
    let low := w.toNat % 4096
    11 ≤ cls ∨ ((cls = 0 ∨ cls = 2 ∨ cls = 4) ∧ low ≠ 0) ∨ (cls = 1 ∧ low / 2 ≠ 0) ∨
      ((cls = 3 ∨ cls = 8) ∧ 2 ≤ low) ∨ ((cls = 5 ∨ cls = 6 ∨ cls = 10) ∧ low / 256 ≠ 0) ∨
      (cls = 7 ∧ low / 8 ≠ 0) ∨ (cls = 9 ∧ low / 512 ≠ 0)) ∧
  (∀ (s : State) (c : Command) (rest : List Command) (e : DecodeError),
    s.commands = c :: rest → decode c.word = .error e → step s = .refused (.illegalCommand c.word e))

/-- R72: every operand is the unsigned value of its bits. -/
def Obligations.OperandsAreTheirBits : Prop :=
  ∀ w : Word,
    (∀ b, decode w = .ok (.edge b) → (b = .A ↔ w.toNat % 2 = 0) ∧ (b = .B ↔ w.toNat % 2 = 1)) ∧
    (∀ c, decode w = .ok (.kbSet c) → c.toNat = w.toNat % 256) ∧
    (∀ c, decode w = .ok (.kbClr c) → c.toNat = w.toNat % 256) ∧
    (∀ m, decode w = .ok (.kbApply m) → m.toNat = w.toNat % 8) ∧
    (∀ l ch, decode w = .ok (.batCompute l ch) → l.toNat = w.toNat % 256 ∧ ch.toNat = w.toNat / 256 % 2) ∧
    (∀ l, decode w = .ok (.batNotify l) → l.toNat = w.toNat % 256)

/-- R79: the encoding examples. The spec marks it as its own inference, from R73 and R78. -/
def Obligations.EncodingExamplesDecode : Prop :=
  decode 0x1001 = .ok (.edge .B) ∧ decode 0x50E0 = .ok (.kbSet 224) ∧ decode 0x6004 = .ok (.kbClr 4) ∧
  decode 0x7003 = .ok (.kbApply 0b011) ∧ decode 0x9132 = .ok (.batCompute 50 true) ∧
  decode 0x9005 = .ok (.batCompute 5 false) ∧ decode 0xA065 = .ok (.batNotify 101) ∧
  decode 0x1002 = .error .mustBeZero ∧ decode 0xB000 = .error .reservedClass ∧ decode 0x3002 = .error .badSub

/-- R77: a stored command word is two bytes, low byte first, and the bytes after it are the next commands'. -/
def Obligations.StoredCommandIsLowByteFirst : Prop :=
  ∀ (i : Instr) (lo hi : Byte) (rest : List Byte),
    (encode i).toNat = lo.toNat + 256 * hi.toNat → decodeBytes (lo :: hi :: rest) = .ok (i, rest)

/-! ## A step, a stop, a run -/

/-- R70, R74: when the word the environment presents decodes to `i`, a step is `i` performed on the state with that
command's inputs at hand and the command gone from the stream. That the command carries its inputs is the model's form
of a draw (notes/assumptions/3.md, notes/assumptions/4.md). -/
def Obligations.StepPerformsThePresentedOperation : Prop :=
  ∀ (s : State) (c : Command) (rest : List Command) (i : Instr),
    s.commands = c :: rest → decode c.word = .ok i →
      step s = exec i { s with commands := rest, inputs := c.inputs, presented := s.presented + 1 }

/-- R229: an operation is refused for exactly the listed reasons, its word being illegal among them; in every other case
it answers a next state (so none faults, R222, R227). A refusal carries no state and no result. -/
def Obligations.OperationsAreRefusedExactlyAsListed : Prop :=
  (∀ (s : State) (c : Command) (rest : List Command), s.commands = c :: rest →
    ((∃ r, step s = .refused r) ↔
      (∃ e, decode c.word = .error e) ∨
        ∃ i r, decode c.word = .ok i ∧ exec i { s with commands := rest, inputs := c.inputs, presented := s.presented + 1 }
          = .refused r)) ∧
  ∀ (i : Instr) (s : State),
    ((∃ r, exec i s = .refused r) ↔
      ¬ s.cfg.legal ∨ (i = .runDeb ∧ s.deb.state ≠ .queued) ∨ (i = .runLp ∧ s.lp.state ≠ .queued) ∨
        ∃ c, (i = .kbSet c ∨ i = .kbClr c) ∧
          ¬ ((224 ≤ c.toNat ∧ c.toNat ≤ 231) ∨ (1 ≤ c.toNat ∧ c.toNat ≤ 101))) ∧
    ((∃ r, exec i s = .refused r) ∨ ∃ t, exec i s = .next t)

/-- R44, R10: which configurations are legal; an illegal one has every operation refused; no operation changes the
configuration. -/
def Obligations.IllegalConfigurationRefusesEveryOperation : Prop :=
  (∀ c : Config, c.legal = true ↔
    (1 ≤ c.tDeb ∧ c.tDeb ≤ 65535) ∧ (1 ≤ c.tLp ∧ c.tLp ≤ 65535) ∧
    ((224 ≤ c.keyA.toNat ∧ c.keyA.toNat ≤ 231) ∨ (1 ≤ c.keyA.toNat ∧ c.keyA.toNat ≤ 101)) ∧
    ((224 ≤ c.keyB.toNat ∧ c.keyB.toNat ≤ 231) ∨ (1 ≤ c.keyB.toNat ∧ c.keyB.toNat ≤ 101)) ∧ c.keyB ≠ c.keyA ∧
    (c.codes.wiredConnected ≤ 3 ∧ c.codes.wiredUnknown ≤ 3 ∧ c.codes.wirelessNever ≤ 3 ∧ c.codes.stateCharging ≤ 3 ∧
      c.codes.stateActiveDischarge ≤ 3 ∧ c.codes.levelGood ≤ 3 ∧ c.codes.levelLow ≤ 3 ∧ c.codes.levelCritical ≤ 3 ∧
      c.codes.levelNotCharging ≤ 3 ∧ c.codes.typeConstantCurrent ≤ 1 ∧ c.codes.typeNotCharging ≤ 1) ∧
    (c.chrLevel ≠ c.chrStatus ∧ c.chrLevel ≠ c.chrKbReport ∧ c.chrLevel ≠ c.chrKbBoot ∧ c.chrStatus ≠ c.chrKbReport ∧
      c.chrStatus ≠ c.chrKbBoot ∧ c.chrKbReport ≠ c.chrKbBoot)) ∧
  (∀ (i : Instr) (s : State), s.cfg.legal = false → exec i s = .refused .illegalConfiguration) ∧
  (∀ (i : Instr) (s t : State), exec i s = .next t → t.cfg = s.cfg)

/-- R240, R53: the machine run by steps on a stream of commands is the run of the operations in their order. The
stream in the state is the model's form of it (notes/assumptions/4.md). -/
def Obligations.StreamRunIsOperationRun : Prop :=
  ∀ (ops : List Presented) (s : State) (rest : List Command),
    Host.Core.run Sys2Proof.core ops.length { s with commands := ops.map Presented.toCommand ++ rest } =
      runOps ops { s with commands := rest }

/-! ## Reset (spec/70_reset_and_hazards.md) -/

/-- R250: RESET from any state gives every field of the block its reset value, cancels both timers, and keeps the trace
and the configuration; its result is OK. -/
def Obligations.ResetRebuildsBootState : Prop :=
  decode 0x0000 = .ok .reset ∧ ∀ s : State, s.cfg.legal →
    exec .reset s = .next
      { s with
        now := 0
        deb := { state := .idle, cnt := 0 }
        lp := { state := .idle, cnt := 0 }
        rawLevel := { a := false, b := false }
        lastChangeTime := { a := 0, b := 0 }
        consumerReg := false
        lastSettled := 0b00
        kb := { ctrl := 0x00, keys := #v[0, 0, 0, 0, 0, 0] }
        bat :=
          { level := 100, charging := false
            powerState := (computeStatus s.cfg.codes 100 false).1
            flags := (computeStatus s.cfg.codes 100 false).2 }
        results := s.results ++ [{ code := .ok, detail := 0, payload := none }] }

/-- R20: the reset column, and 0x0045 for the status with the default codes. The configuration beside them is the
model's choice (notes/assumptions/2.md). -/
def Obligations.ResetStateIsTheResetColumn : Prop :=
  State.reset.now = 0 ∧ State.reset.deb = { state := .idle, cnt := 0 } ∧
  State.reset.rawLevel = { a := false, b := false } ∧ State.reset.lastChangeTime = { a := 0, b := 0 } ∧
  State.reset.consumerReg = false ∧ State.reset.lastSettled = 0b00 ∧
  State.reset.lp = { state := .idle, cnt := 0 } ∧ State.reset.kb = { ctrl := 0, keys := #v[0, 0, 0, 0, 0, 0] } ∧
  State.reset.bat.level = 100 ∧ State.reset.bat.charging = false ∧ State.reset.bat.flags = 0x00 ∧
  State.reset.bat.powerState = (computeStatus State.reset.cfg.codes 100 false).1 ∧
  (computeStatus Codes.default 100 false).1 = 0x0045

/-! ## The debounce engine (spec/40_debounce.md) -/

/-- R100: EDGE arms the debounce timer for `T_DEB` ticks from any state, notes the button's time, and changes nothing else. -/
def Obligations.EdgeRestartsTheQuietPeriod : Prop :=
  decode 0x1000 = .ok (.edge .A) ∧ decode 0x1001 = .ok (.edge .B) ∧ ∀ s : State, s.cfg.legal →
    exec (.edge .A) s = .next
      { s with
        deb := { state := .armed, cnt := BitVec.ofNat 16 s.cfg.tDeb }
        lastChangeTime := { a := s.now, b := s.lastChangeTime.b }
        results := s.results ++ [{ code := .ok, detail := 0, payload := none }] } ∧
    exec (.edge .B) s = .next
      { s with
        deb := { state := .armed, cnt := BitVec.ofNat 16 s.cfg.tDeb }
        lastChangeTime := { a := s.lastChangeTime.a, b := s.now }
        results := s.results ++ [{ code := .ok, detail := 0, payload := none }] }

/-- R104: TICK advances `now` modulo 2^32; each armed timer counts down or, at 1, becomes QUEUED; an idle or queued timer
and everything else is unchanged. -/
def Obligations.TickAdvancesTimeAndTimers : Prop :=
  decode 0x2000 = .ok .tick ∧ ∀ s : State, s.cfg.legal → ∃ d l : Timer,
    exec .tick s = .next
      { s with
        now := BitVec.ofNat 32 ((s.now.toNat + 1) % 2 ^ 32), deb := d, lp := l
        results := s.results ++ [{ code := .ok, detail := 0, payload := none }] } ∧
    (s.deb.state ≠ .armed → d = s.deb) ∧
    (s.deb.state = .armed → s.deb.cnt.toNat = 1 → d = { state := .queued, cnt := 0 }) ∧
    (s.deb.state = .armed → 1 < s.deb.cnt.toNat → d.state = .armed ∧ d.cnt.toNat = s.deb.cnt.toNat - 1) ∧
    (s.lp.state ≠ .armed → l = s.lp) ∧
    (s.lp.state = .armed → s.lp.cnt.toNat = 1 → l = { state := .queued, cnt := 0 }) ∧
    (s.lp.state = .armed → 1 < s.lp.cnt.toNat → l.state = .armed ∧ l.cnt.toNat = s.lp.cnt.toNat - 1)

/-- R105: after an EDGE the debounce timer becomes QUEUED at the `T_DEB`-th TICK when no further EDGE comes between
(nor a RESET, nor the RUN_DEB that takes the expired timer), whatever else runs, and never otherwise: only a TICK
queues it. The spec marks it as its own inference, from R100 and R104. -/
def Obligations.QuietPeriodEndsAtTheTDebthTick : Prop :=
  (∀ (s t : State) (b : Button) (inp : Inputs) (ops : List Presented), s.cfg.legal →
    (∀ op ∈ ops, (∀ b', op.1 ≠ .edge b') ∧ op.1 ≠ .reset ∧ op.1 ≠ .runDeb) →
    runOps ((.edge b, inp) :: ops) s = .next t →
      t.deb = if ticksIn ops < s.cfg.tDeb
        then { state := .armed, cnt := BitVec.ofNat 16 (s.cfg.tDeb - ticksIn ops) }
        else { state := .queued, cnt := 0 }) ∧
  (∀ (i : Instr) (s t : State), exec i s = .next t → t.deb.state = .queued → s.deb.state ≠ .queued →
    i = .tick ∧ s.deb.state = .armed ∧ s.deb.cnt.toNat = 1)

/-- R120: edges that keep arriving with gaps of fewer than `T_DEB` ticks leave the timer ARMED and emit nothing. The
spec marks it as its own inference, from R105. -/
def Obligations.CloseEdgesNeverSettle : Prop :=
  ∀ (s : State) (bs : List (Button × Nat)), s.cfg.legal → bs ≠ [] → (∀ bg ∈ bs, bg.2 < s.cfg.tDeb) →
    ∃ t, runOps (edges bs) s = .next t ∧ t.deb.state = .armed ∧ t.trace = s.trace

/-- R114: edges with gaps of fewer than `T_DEB` ticks, then `T_DEB` ticks with no edge, then RUN_DEB: one settlement,
of the levels at the RUN_DEB. The spec marks it as its own inference, from R105 and R108. -/
def Obligations.CoalescedEdgesSettleOnce : Prop :=
  ∀ (s : State) (bs : List (Button × Nat)) (b : Button) (inp : Inputs) (lv : PerButton Bool), s.cfg.legal →
    (∀ bg ∈ bs, bg.2 < s.cfg.tDeb) → inp.levels = some lv →
    ∃ t, runOps (edges bs ++ edges [(b, s.cfg.tDeb)] ++ [(.runDeb, inp)]) s = .next t ∧
      t.deb.state = .idle ∧ t.rawLevel = lv ∧
      t.lastSettled = BitVec.ofBool lv.b ++ BitVec.ofBool lv.a ∧
      t.trace = s.trace ++
        if s.consumerReg ∧ (s.cfg.suppressUnchanged = false ∨
            BitVec.ofBool lv.b ++ BitVec.ofBool lv.a ≠ s.lastSettled)
          then [.button (0#1 ++ (BitVec.ofBool lv.b ++ BitVec.ofBool lv.a))] else []

/-- R106: an expired timer stays QUEUED, through TICKs and every other operation, until its callback runs and leaves it
IDLE; nothing restarts it but the EDGE or settlement that rearms it; RESET, and for the long-press timer a settlement,
cancels it. -/
def Obligations.ExpiredTimerWaitsForItsCallback : Prop :=
  (∀ (i : Instr) (s t : State), exec i s = .next t → s.deb.state = .queued →
    (t.deb = s.deb ∧ (∀ b, i ≠ .edge b) ∧ i ≠ .runDeb ∧ i ≠ .reset) ∨
      (i = .runDeb ∧ t.deb.state = .idle) ∨ (i = .reset ∧ t.deb.state = .idle) ∨
      ∃ b, i = .edge b ∧ t.deb = { state := .armed, cnt := BitVec.ofNat 16 s.cfg.tDeb }) ∧
  (∀ (i : Instr) (s t : State), exec i s = .next t → s.lp.state = .queued →
    (t.lp = s.lp ∧ i ≠ .runDeb ∧ i ≠ .runLp ∧ i ≠ .reset) ∨
      (i = .runLp ∧ t.lp.state = .idle) ∨ (i = .reset ∧ t.lp.state = .idle) ∨
      (i = .runDeb ∧ (t.lp.state = .idle ∨ t.lp = { state := .armed, cnt := BitVec.ofNat 16 s.cfg.tLp })))

/-- R108: RUN_DEB in the QUEUED state with the sample `lv`: the fields it writes, the event it emits, the long-press
timer it arms or cancels, and nothing else. That the timer's count stays as it is, also in a QUEUED state with a count
other than 0, is the model's reading of R108 (notes/assumptions/7.md); R24 has the count 0 there. -/
def Obligations.SettlementActsOnItsSample : Prop :=
  decode 0x3000 = .ok .runDeb ∧
  (∀ s : State, s.cfg.legal → s.deb.state ≠ .queued → exec .runDeb s = .refused .debounceNotQueued) ∧
  ∀ s : State, s.cfg.legal → s.deb.state = .queued →
    let lv := s.levels
    let raw : RawMask := BitVec.ofBool lv.b ++ BitVec.ofBool lv.a
    exec .runDeb s = .next
      { s with
        deb := { state := .idle, cnt := s.deb.cnt }
        rawLevel := lv
        lastSettled := raw
        lp := if lv.a ∧ lv.b then { state := .armed, cnt := BitVec.ofNat 16 s.cfg.tLp } else { state := .idle, cnt := 0 }
        trace := s.trace ++
          if (s.cfg.suppressUnchanged = false ∨ raw ≠ s.lastSettled) ∧ s.consumerReg then [.button (0#1 ++ raw)] else []
        results := s.results ++ [{ code := .ok, detail := 0, payload := none }] }

/-- R110: `SUPPRESS_UNCHANGED` changes which settlements emit and nothing else: false emits every one, true those whose
raw mask differs from `last_settled`; under both, `last_settled` is updated and the long-press timer armed or cancelled. -/
def Obligations.SuppressionChangesEventsOnly : Prop :=
  ∀ s : State, s.cfg.legal → s.deb.state = .queued →
    let raw : RawMask := BitVec.ofBool s.levels.b ++ BitVec.ofBool s.levels.a
    ∃ t0 t1,
      exec .runDeb { s with cfg := { s.cfg with suppressUnchanged := false } } = .next t0 ∧
      exec .runDeb { s with cfg := { s.cfg with suppressUnchanged := true } } = .next t1 ∧
      t0 = { t1 with cfg := t0.cfg, trace := t0.trace } ∧ t1.lastSettled = raw ∧
      (raw = 0b11 → t1.lp = { state := .armed, cnt := BitVec.ofNat 16 s.cfg.tLp }) ∧
      (raw ≠ 0b11 → t1.lp = { state := .idle, cnt := 0 }) ∧
      (s.consumerReg → t0.trace = s.trace ++ [.button (0#1 ++ raw)] ∧
        t1.trace = s.trace ++ if raw = s.lastSettled then [] else [.button (0#1 ++ raw)]) ∧
      (s.consumerReg = false → t0.trace = s.trace ∧ t1.trace = s.trace)

/-- R112: with no consumer the event of RUN_DEB or RUN_LP is discarded without error, and the state changes of the
operation are the same as with one. The spec marks it as its own inference, from R108. -/
def Obligations.MissingConsumerOnlyDiscardsTheEvent : Prop :=
  ∀ (i : Instr) (s t : State), (i = .runDeb ∨ i = .runLp) →
    exec i { s with consumerReg := true } = .next t →
      exec i { s with consumerReg := false } = .next { t with consumerReg := false, trace := s.trace }

/-- R102: settlement events (every ButtonMask but 0b111) are emitted only by a RUN_DEB that takes the QUEUED timer to
IDLE; 0b111 only by RUN_LP; no other operation puts a button event on the trace. The spec marks it as its own
inference, from R100, R104 and R108. -/
def Obligations.ButtonEventsComeFromCallbacksOnly : Prop :=
  ∀ (i : Instr) (s t : State), exec i s = .next t → ∃ new, t.trace = s.trace ++ new ∧
    ∀ m, Event.button m ∈ new →
      (m ≠ 0b111 ∧ i = .runDeb ∧ s.deb.state = .queued ∧ t.deb.state = .idle) ∨ (m = 0b111 ∧ i = .runLp)

/-- R116: REG registers the consumer, and again changes nothing more. -/
def Obligations.RegRegistersTheConsumer : Prop :=
  decode 0x4000 = .ok .reg ∧ ∀ s : State, s.cfg.legal →
    exec .reg s = .next
      { s with consumerReg := true, results := s.results ++ [{ code := .ok, detail := 0, payload := none }] }

/-- R226(3): with both timers QUEUED, RUN_DEB first drops the long-press firing, and RUN_LP is then refused; RUN_LP
first leaves RUN_DEB to run. A decision of the spec (D6, D30). -/
def Obligations.SettlementFirstDropsTheQueuedLongPress : Prop :=
  ∀ s : State, s.cfg.legal → s.deb.state = .queued → s.lp.state = .queued →
    (∃ t, exec .runDeb s = .next t ∧ exec .runLp t = .refused .longPressNotQueued) ∧
    (∃ t u, exec .runLp s = .next t ∧ exec .runDeb t = .next u)

/-! ## The long-press timer (spec/41_longpress.md) -/

/-- R130: the transitions of the long-press timer, over all operations. The spec marks it as its own inference, from
R104, R108, R134 and R250. -/
def Obligations.LongPressTimerTransitions : Prop :=
  ∀ (i : Instr) (s t : State), exec i s = .next t →
    match i with
    | .runDeb =>
      (s.levels = { a := true, b := true } → t.lp = { state := .armed, cnt := BitVec.ofNat 16 s.cfg.tLp }) ∧
      (s.levels ≠ { a := true, b := true } → t.lp = { state := .idle, cnt := 0 })
    | .tick =>
      (s.lp.state = .armed → 1 < s.lp.cnt.toNat → t.lp.state = .armed ∧ t.lp.cnt.toNat = s.lp.cnt.toNat - 1) ∧
      (s.lp.state = .armed → s.lp.cnt.toNat = 1 → t.lp = { state := .queued, cnt := 0 }) ∧
      (s.lp.state ≠ .armed → t.lp = s.lp)
    | .runLp => s.lp.state = .queued ∧ t.lp.state = .idle
    | .reset => t.lp = { state := .idle, cnt := 0 }
    | .edge _ | .reg | .kbSet _ | .kbClr _ | .kbApply _ | .kbSer | .kbSend | .batCompute _ _ | .batNotify _ =>
      t.lp = s.lp

/-- R132: the deadline is `T_LP` TICKs after the RUN_DEB that armed the timer, unless a RUN_DEB or RESET comes
between; no other operation, an EDGE among them, moves it. (RUN_LP takes the expired timer, so it does not come
between either.) The spec marks it as its own inference, from R130. -/
def Obligations.LongPressDeadlineIsTLpTicksAfterArming : Prop :=
  ∀ (s t : State) (inp : Inputs) (ops : List Presented), s.cfg.legal → inp.levels = some { a := true, b := true } →
    (∀ op ∈ ops, op.1 ≠ .runDeb ∧ op.1 ≠ .reset ∧ op.1 ≠ .runLp) →
    runOps ((.runDeb, inp) :: ops) s = .next t →
      t.lp = if ticksIn ops < s.cfg.tLp
        then { state := .armed, cnt := BitVec.ofNat 16 (s.cfg.tLp - ticksIn ops) }
        else { state := .queued, cnt := 0 }

/-- R134: RUN_LP in the QUEUED state decides on a fresh sample: 0b111 if both levels are active and a consumer is
registered, nothing otherwise; `last_settled`, the debounce timer and everything else is unchanged. That the timer's
count stays as it is, also in a QUEUED state with a count other than 0, is the model's reading of R134
(notes/assumptions/7.md); R25 has the count 0 there. -/
def Obligations.ExpiryActsOnAFreshSample : Prop :=
  decode 0x3001 = .ok .runLp ∧
  (∀ s : State, s.cfg.legal → s.lp.state ≠ .queued → exec .runLp s = .refused .longPressNotQueued) ∧
  ∀ s : State, s.cfg.legal → s.lp.state = .queued →
    exec .runLp s = .next
      { s with
        lp := { state := .idle, cnt := s.lp.cnt }
        rawLevel := s.levels
        trace := s.trace ++ if s.levels.a ∧ s.levels.b ∧ s.consumerReg then [.button 0b111] else []
        results := s.results ++ [{ code := .ok, detail := 0, payload := none }] }

/-- R136: in a run from a state with no long-press timer pending, a RUN_LP at its end emits 0b111 if and only if (a) a
RUN_DEB sampled both levels active, (b) no RUN_DEB and no RESET came after it (nor a RUN_LP, which would have taken
the expired timer), (c) `T_LP` TICKs did, (d) both levels are active at the RUN_LP, and (e) a consumer is registered.
The spec marks it as its own inference, from R130, R132 and R134. -/
def Obligations.LongPressEventIffItsHistory : Prop :=
  ∀ (s u : State) (ops : List Presented) (inp : Inputs), s.cfg.legal → s.lp.state = .idle → runOps ops s = .next u →
    ((∃ t, exec .runLp (u.give inp) = .next t ∧ t.trace = u.trace ++ [.button 0b111]) ↔
      (∃ pre d post v, ops = pre ++ (.runDeb, d) :: post ∧ runOps pre s = .next v ∧
        (v.give d).levels = { a := true, b := true } ∧
        (∀ op ∈ post, op.1 ≠ .runDeb ∧ op.1 ≠ .reset ∧ op.1 ≠ .runLp) ∧ s.cfg.tLp ≤ ticksIn post) ∧
      (u.give inp).levels = { a := true, b := true } ∧ u.consumerReg = true)

/-- R138: two 0b111 events need two arming settlements: a run from a state with no long-press timer pending emits at
most one 0b111 for each RUN_DEB that samples both levels active. The spec marks it as its own inference, from R130 and
R134. -/
def Obligations.OneArmingYieldsAtMostOneLongPress : Prop :=
  ∀ (s t : State) (ops : List Presented), s.lp.state = .idle →
    (∀ op ∈ ops, op.1 = .runDeb → op.2.levels.isSome) → runOps ops s = .next t →
      longPressesIn t.trace ≤ longPressesIn s.trace + armingsIn ops

/-! ## The keyboard encoder (spec/42_keyboard.md) -/

/-- R155: KB_SET of a modifier sets its bit; of a normal code it is a no-op when present, fills the first empty slot when
absent, and fails with the state unchanged when absent and all six slots are occupied. -/
def Obligations.KbSetPressesAKey : Prop :=
  (∀ c : Byte, decode (BitVec.ofNat 16 (0x5000 + c.toNat)) = .ok (.kbSet c)) ∧
  ∀ (s : State) (c : Byte), s.cfg.legal →
    (¬ ((224 ≤ c.toNat ∧ c.toNat ≤ 231) ∨ (1 ≤ c.toNat ∧ c.toNat ≤ 101)) →
      exec (.kbSet c) s = .refused (.notAKeyCode c)) ∧
    (224 ≤ c.toNat → c.toNat ≤ 231 → ∃ ctrl,
      exec (.kbSet c) s = .next
        { s with
          kb := { s.kb with ctrl := ctrl }
          results := s.results ++ [{ code := .ok, detail := 0, payload := none }] } ∧
      ∀ j < 8, ctrl.getLsbD j = (s.kb.ctrl.getLsbD j || decide (c.toNat = 224 + j))) ∧
    (1 ≤ c.toNat → c.toNat ≤ 101 →
      ((∃ i : Fin 6, s.kb.keys[i] = c) →
        exec (.kbSet c) s = .next
          { s with results := s.results ++ [{ code := .ok, detail := 0, payload := none }] }) ∧
      ((∀ i : Fin 6, s.kb.keys[i] ≠ c) → (∀ i : Fin 6, s.kb.keys[i] ≠ 0) →
        exec (.kbSet c) s = .next
          { s with results := s.results ++ [{ code := .capacityExhausted, detail := 0, payload := none }] }) ∧
      (∀ i : Fin 6, (∀ j : Fin 6, s.kb.keys[j] ≠ c) → s.kb.keys[i] = 0 → (∀ j : Fin 6, j < i → s.kb.keys[j] ≠ 0) →
        exec (.kbSet c) s = .next
          { s with
            kb := { s.kb with keys := s.kb.keys.set i c }
            results := s.results ++ [{ code := .ok, detail := 0, payload := none }] }))

/-- R157: KB_CLR of a modifier clears its bit and never fails; of a normal code it zeroes the first slot that holds it and
moves no other, and fails with the state unchanged when none does. -/
def Obligations.KbClrReleasesAKey : Prop :=
  (∀ c : Byte, decode (BitVec.ofNat 16 (0x6000 + c.toNat)) = .ok (.kbClr c)) ∧
  ∀ (s : State) (c : Byte), s.cfg.legal →
    (¬ ((224 ≤ c.toNat ∧ c.toNat ≤ 231) ∨ (1 ≤ c.toNat ∧ c.toNat ≤ 101)) →
      exec (.kbClr c) s = .refused (.notAKeyCode c)) ∧
    (224 ≤ c.toNat → c.toNat ≤ 231 → ∃ ctrl,
      exec (.kbClr c) s = .next
        { s with
          kb := { s.kb with ctrl := ctrl }
          results := s.results ++ [{ code := .ok, detail := 0, payload := none }] } ∧
      ∀ j < 8, ctrl.getLsbD j = (s.kb.ctrl.getLsbD j && !decide (c.toNat = 224 + j))) ∧
    (1 ≤ c.toNat → c.toNat ≤ 101 →
      ((∀ i : Fin 6, s.kb.keys[i] ≠ c) →
        exec (.kbClr c) s = .next
          { s with results := s.results ++ [{ code := .keyNotFound, detail := 0, payload := none }] }) ∧
      (∀ i : Fin 6, s.kb.keys[i] = c → (∀ j : Fin 6, j < i → s.kb.keys[j] ≠ c) →
        exec (.kbClr c) s = .next
          { s with
            kb := { s.kb with keys := s.kb.keys.set i 0 }
            results := s.results ++ [{ code := .ok, detail := 0, payload := none }] }))

/-- R164: six distinct normal codes in the slots: KB_SET of a seventh returns CAPACITY_EXHAUSTED and leaves the state
unchanged, whatever the modifier bits. The spec marks it as its own inference, from R155. -/
def Obligations.SeventhKeyIsRefusedCapacity : Prop :=
  ∀ (s : State) (c : Byte), s.cfg.legal → (∀ i : Fin 6, isNormal s.kb.keys[i]) →
    (∀ i j : Fin 6, s.kb.keys[i] = s.kb.keys[j] → i = j) → isNormal c → (∀ i : Fin 6, s.kb.keys[i] ≠ c) →
      exec (.kbSet c) s = .next
        { s with results := s.results ++ [{ code := .capacityExhausted, detail := 0, payload := none }] }

/-- R160: KB_APPLY is KB_SET or KB_CLR of `KEY_A` by bit 0, then KB_SET or KB_CLR of `KEY_B` by bit 1 on the state that
left; bit 2 is ignored; the result is the first failure, with both codes in the detail byte; it is never refused. -/
def Obligations.KbApplyIsKeyAThenKeyB : Prop :=
  (∀ m : ButtonMask, decode (BitVec.ofNat 16 (0x7000 + m.toNat)) = .ok (.kbApply m)) ∧
  ∀ (s : State) (m : ButtonMask), s.cfg.legal → ∃ tA tB rA rB,
    exec (if m.toNat % 2 = 1 then .kbSet s.cfg.keyA else .kbClr s.cfg.keyA) s = .next tA ∧
    tA.results = s.results ++ [{ code := rA, detail := 0, payload := none }] ∧
    exec (if m.toNat / 2 % 2 = 1 then .kbSet s.cfg.keyB else .kbClr s.cfg.keyB) tA = .next tB ∧
    tB.results = tA.results ++ [{ code := rB, detail := 0, payload := none }] ∧
    exec (.kbApply m) s = .next
      { s with
        kb := tB.kb
        results := s.results ++
          [{ code := if rA = .ok then rB else rA
             detail := BitVec.ofNat 8 (16 * rB.toByte.toNat + rA.toByte.toNat), payload := none }] }

/-- R162, as its first sentence says it of every state and mask: applying the same mask twice leaves the encoder's
state of the first application. NOT so under R160: when key A's set fails for want of a slot and key B's clear then
frees one, the second application stores key A (notes/assumptions/8.md). The spec marks it as its own inference, from
R155, R157 and R160. -/
def Obligations.SecondApplyNeverChangesTheEncoder : Prop :=
  ∀ (s t u : State) (m : ButtonMask), s.kb.SlotsSound → exec (.kbApply m) s = .next t → exec (.kbApply m) t = .next u →
    u.kb = t.kb

/-- R162, with the premise under which R160 gives it: key A's set did not fail for want of a slot. The second
application leaves the encoder's state, and its report, as they are. The spec marks it as its own inference, from
R155, R157 and R160. -/
def Obligations.SecondApplyIsIdleUnlessKeyAWasTurnedAway : Prop :=
  ∀ (s t u : State) (m : ButtonMask), s.kb.SlotsSound → exec (.kbApply m) s = .next t → exec (.kbApply m) t = .next u →
    (s.kb.applyKey (m.getLsbD 0) s.cfg.keyA).1 ≠ .capacityExhausted →
      u.kb = t.kb ∧ u.kb.serialize = t.kb.serialize

/-- R162, both its sentences, in every case but the one in which R160 makes it false (notes/assumptions/8.md): the second
application of the same mask completes, leaves the whole state but the results as the first left it, and returns the codes
R162 names: OK for a key whose set succeeded, CAPACITY_EXHAUSTED for one whose set failed, KEY_NOT_FOUND for a normal key that
was cleared, whatever its clear returned the first time; a cleared modifier gives OK. The spec marks R162 as its own
inference, from R155, R157 and R160. -/
def Obligations.SecondApplyIsIdleAndReturnsTheNamedCodes : Prop :=
  ∀ (s t : State) (m : ButtonMask), s.kb.SlotsSound → ¬ s.kb.FreesSlotTooLate s.cfg m →
    exec (.kbApply m) s = .next t →
      let stepA := s.kb.applyKey (m.getLsbD 0) s.cfg.keyA
      let stepB := stepA.2.applyKey (m.getLsbD 1) s.cfg.keyB
      let rA := codeWhenRepeated (m.getLsbD 0) s.cfg.keyA stepA.1
      let rB := codeWhenRepeated (m.getLsbD 1) s.cfg.keyB stepB.1
      exec (.kbApply m) t = .next
        { t with
          results := t.results ++
            [{ code := if rA = .ok then rB else rA
               detail := BitVec.ofNat 8 (16 * rB.toByte.toNat + rA.toByte.toNat), payload := none }] }

/-- R160 in the one case left: the first application turns key A away and empties key B's slot; the second stores key A in
that slot and finds key B no more. R162 says otherwise of this case; the model follows R160 (notes/assumptions/8.md). -/
def Obligations.SecondApplyStoresTheKeyTurnedAway : Prop :=
  ∀ (s : State) (m : ButtonMask) (j : Fin 6), s.cfg.legal → s.kb.SlotsSound → s.kb.FreesSlotTooLate s.cfg m →
    s.kb.keys[j] = s.cfg.keyB → ∃ t,
      exec (.kbApply m) s = .next t ∧
      t = { s with
        kb := { s.kb with keys := s.kb.keys.set j 0 }
        results := s.results ++ [{ code := .capacityExhausted, detail := 0x01, payload := none }] } ∧
      exec (.kbApply m) t = .next
        { t with
          kb := { s.kb with keys := s.kb.keys.set j s.cfg.keyA }
          results := t.results ++ [{ code := .keyNotFound, detail := 0x20, payload := none }] }

/-- R166: from an empty encoder, KB_APPLY m and then KB_SER emit a report that shows key A exactly when bit 0 of `m`
is set and key B exactly when bit 1 is. The spec marks it as its own inference, from R160 and R170. -/
def Obligations.ReportRoundTripsTheMask : Prop :=
  ∀ (s : State) (m : ButtonMask) (inp1 inp2 : Inputs), s.cfg.legal → s.kb = { ctrl := 0, keys := #v[0, 0, 0, 0, 0, 0] } →
    ∃ t bytes, runOps [(.kbApply m, inp1), (.kbSer, inp2)] s = .next t ∧ t.trace = s.trace ++ [.report bytes] ∧
      reportShows bytes s.cfg.keyA = m.getLsbD 0 ∧ reportShows bytes s.cfg.keyB = m.getLsbD 1

/-- R170: KB_SER emits the eight bytes, the modifier byte first, then zero, then the slots in order, and changes no state. -/
def Obligations.KbSerEmitsTheReport : Prop :=
  decode 0x8000 = .ok .kbSer ∧ ∀ s : State, s.cfg.legal →
    exec .kbSer s = .next
      { s with
        trace := s.trace ++ [.report [s.kb.ctrl, 0x00, s.kb.keys[0], s.kb.keys[1], s.kb.keys[2], s.kb.keys[3],
          s.kb.keys[4], s.kb.keys[5]]]
        results := s.results ++ [{ code := .ok, detail := 0, payload := none }] }

/-- R172: KB_SEND hands the same bytes to the characteristic of the protocol mode; NotConnected is success, `Other(e)` is
TRANSPORT_OTHER(e); no state changes. -/
def Obligations.KbSendHandsTheReportOver : Prop :=
  decode 0x8001 = .ok .kbSend ∧ ∀ s : State, s.cfg.legal → ∃ r : Result,
    exec .kbSend s = .next
      { s with
        trace := s.trace ++ [.notify (if s.protocolMode = .boot then s.cfg.chrKbBoot else s.cfg.chrKbReport)
          [s.kb.ctrl, 0x00, s.kb.keys[0], s.kb.keys[1], s.kb.keys[2], s.kb.keys[3], s.kb.keys[4], s.kb.keys[5]]
          (s.response 0)]
        results := s.results ++ [r] } ∧
    (s.response 0 = .ok ∨ s.response 0 = .notConnected → r = { code := .ok, detail := 0, payload := none }) ∧
    (∀ e, s.response 0 = .other e → r = { code := .transportOther, detail := 0, payload := some e })

/-! ## The battery packer (spec/43_battery.md) -/

/-- R195: BAT_COMPUTE overwrites the whole battery state for every 8-bit level, and changes nothing else. -/
def Obligations.BatComputeOverwritesTheStatus : Prop :=
  (∀ (l : Byte) (ch : Bool), decode (BitVec.ofNat 16 (0x9000 + 256 * ch.toNat + l.toNat)) = .ok (.batCompute l ch)) ∧
  ∀ (s : State) (l : Byte) (ch : Bool), s.cfg.legal →
    exec (.batCompute l ch) s = .next
      { s with
        bat :=
          { level := l, charging := ch, powerState := (computeStatus s.cfg.codes l ch).1, flags := 0x00 }
        results := s.results ++ [{ code := .ok, detail := 0, payload := none }] }

/-- R37, R192, R194: each sub-field of the computed word holds the code R194 names for it, for all legal codes, and bits
15:10 are 0. -/
def Obligations.PowerStateFieldsHoldTheirCodes : Prop :=
  ∀ (k : Codes) (l : Byte) (ch : Bool), k.legal →
    let ps := (computeStatus k l ch).1.toNat
    ps % 2 = 1 ∧
    ps / 2 % 4 = (if ch then k.wiredConnected else k.wiredUnknown) ∧
    ps / 8 % 4 = k.wirelessNever ∧
    ps / 32 % 4 = (if ch then k.stateCharging else k.stateActiveDischarge) ∧
    ps / 128 % 4 =
      (if ch then (if l.toNat < 10 then k.levelCritical else if l.toNat < 20 then k.levelLow else k.levelGood)
        else k.levelNotCharging) ∧
    ps / 512 % 2 = (if ch then k.typeConstantCurrent else k.typeNotCharging) ∧
    ps / 1024 = 0 ∧ (computeStatus k l ch).2 = 0x00

/-- R196: every value `power_state` takes with the default codes. The spec marks it as its own inference, from R192
and R194. -/
def Obligations.DefaultCodesGiveFourStatusWords : Prop :=
  ∀ (s : State) (l : Byte) (ch : Bool), s.cfg.legal → s.cfg.codes = Codes.default →
    ∃ t, exec (.batCompute l ch) s = .next t ∧
      t.bat.powerState =
        if ch = false then 0x0045 else if l.toNat ≤ 9 then 0x03A3 else if l.toNat ≤ 19 then 0x0323 else 0x02A3

/-- R200, R202, R204: BAT_NOTIFY above 100 makes no call; else both calls are made, level first, the status being the
state's; the level call's failure takes precedence, and NotConnected is success. No state changes. -/
def Obligations.BatNotifySendsLevelThenStatus : Prop :=
  (∀ l : Byte, decode (BitVec.ofNat 16 (0xA000 + l.toNat)) = .ok (.batNotify l)) ∧
  ∀ (s : State) (l : Byte), s.cfg.legal →
    (101 ≤ l.toNat →
      exec (.batNotify l) s = .next
        { s with results := s.results ++ [{ code := .invalidBatteryLevel, detail := 0, payload := none }] }) ∧
    (l.toNat ≤ 100 → ∃ r : Result,
      exec (.batNotify l) s = .next
        { s with
          trace := s.trace ++
            [.notify s.cfg.chrLevel [l] (s.response 0),
             .notify s.cfg.chrStatus
               (if s.cfg.statusLayout = .powerStateFirst
                then [s.bat.powerState.extractLsb' 0 8, s.bat.powerState.extractLsb' 8 8, s.bat.flags]
                else [s.bat.flags, s.bat.powerState.extractLsb' 0 8, s.bat.powerState.extractLsb' 8 8])
               (s.response 1)]
          results := s.results ++ [r] } ∧
      (∀ e, s.response 0 = .other e → r = { code := .transportOther, detail := 0, payload := some e }) ∧
      (∀ e, (∀ e', s.response 0 ≠ .other e') → s.response 1 = .other e →
        r = { code := .transportOther, detail := 0, payload := some e }) ∧
      ((∀ e, s.response 0 ≠ .other e) → (∀ e, s.response 1 ≠ .other e) →
        r = { code := .ok, detail := 0, payload := none }))

/-! ## The whole machine -/

/-- R38: an operation not listed for a field leaves it unchanged (and writes neither the configuration nor the
environment's commands and inputs); and what it writes, emits and returns depends on the fields it reads and on nothing else
of the state: two states that agree on those, with the same configuration and inputs, lead to the same values. EDGE
writes one of the two `last_change_time` values, so the two states agree on that one. -/
def Obligations.OperationKeepsToItsAccessColumn : Prop :=
  (∀ (i : Instr) (s t : State), exec i s = .next t →
    (∀ f : Field, mayWrite i f = false → SameField f s t) ∧
      t.cfg = s.cfg ∧ t.commands = s.commands ∧ t.inputs = s.inputs ∧ t.presented = s.presented) ∧
  (∀ (i : Instr) (s s' t : State), exec i s = .next t → (∀ f : Field, mayRead i f = true → SameField f s s') →
    s'.cfg = s.cfg → s'.inputs = s.inputs → s'.presented = s.presented →
      ∃ t' events r, exec i s' = .next t' ∧
        (∀ f : Field, mayWrite i f = true → (f = .lastChangeTime → i = .reset) → SameField f t t') ∧
        (∀ b, i = .edge b → t'.lastChangeTime.get b = t.lastChangeTime.get b) ∧
        t.trace = s.trace ++ events ∧ t'.trace = s'.trace ++ events ∧
        t.results = s.results ++ [r] ∧ t'.results = s'.results ++ [r])

/-- R232: the state is mutated only by its own component: the keyboard state by KB_SET, KB_CLR and KB_APPLY, the battery
state by BAT_COMPUTE, the button state by EDGE, TICK, RUN_DEB and RUN_LP; RESET apart. -/
def Obligations.EachStateIsMutatedByItsOwnerOnly : Prop :=
  ∀ (i : Instr) (s t : State), exec i s = .next t → i ≠ .reset →
    (t.kb ≠ s.kb → (∃ c, i = .kbSet c) ∨ (∃ c, i = .kbClr c) ∨ ∃ m, i = .kbApply m) ∧
    (t.bat ≠ s.bat → ∃ l ch, i = .batCompute l ch) ∧
    ((t.deb ≠ s.deb ∨ t.lp ≠ s.lp ∨ t.rawLevel ≠ s.rawLevel ∨ t.lastChangeTime ≠ s.lastChangeTime ∨
        t.lastSettled ≠ s.lastSettled) →
      (∃ b, i = .edge b) ∨ i = .tick ∨ i = .runDeb ∨ i = .runLp)

/-- R65, R42: a step only appends to the output trace: no later step changes an emitted event, RESET among them. -/
def Obligations.StepKeepsEmittedEvents : Prop :=
  ∀ s t : State, step s = .next t → s.trace <+: t.trace

/-- R220, R221: every operation returns one result, of the five codes; each code comes from the operations and for the
causes R221 lists, with the state after it as listed; a payload comes with TRANSPORT_OTHER only and is the `e` of the
response unchanged, every call of the operation having been made; the detail byte is 0 but for KB_APPLY, which reports the
code KB_SET or KB_CLR of key A returns and then that of key B on the state key A left. -/
def Obligations.OperationReturnsOneListedResult : Prop :=
  (ResultCode.ok.toByte = 0x00 ∧ ResultCode.capacityExhausted.toByte = 0x01 ∧ ResultCode.keyNotFound.toByte = 0x02 ∧
    ResultCode.invalidBatteryLevel.toByte = 0x03 ∧ ResultCode.transportOther.toByte = 0x04) ∧
  ∀ (i : Instr) (s t : State), exec i s = .next t → ∃ r, t.results = s.results ++ [r] ∧
    (r.payload.isSome ↔ r.code = .transportOther) ∧
    ((∀ m, i ≠ .kbApply m) → r.detail = 0) ∧
    (r.code = .capacityExhausted → (∃ c, i = .kbSet c) ∨ ∃ m, i = .kbApply m) ∧
    (r.code = .keyNotFound → (∃ c, i = .kbClr c) ∨ ∃ m, i = .kbApply m) ∧
    (r.code = .invalidBatteryLevel → ∃ l, i = .batNotify l) ∧
    (r.code = .transportOther → i = .kbSend ∨ ∃ l, i = .batNotify l) ∧
    (r.code ≠ .ok → (∀ m, i ≠ .kbApply m) → t = { s with trace := t.trace, results := t.results }) ∧
    (∀ c, i = .kbSet c → (r.code = .capacityExhausted ↔
      (1 ≤ c.toNat ∧ c.toNat ≤ 101) ∧ ∀ j : Fin 6, s.kb.keys[j] ≠ c ∧ s.kb.keys[j] ≠ 0)) ∧
    (∀ c, i = .kbClr c → (r.code = .keyNotFound ↔ (1 ≤ c.toNat ∧ c.toNat ≤ 101) ∧ ∀ j : Fin 6, s.kb.keys[j] ≠ c)) ∧
    (∀ m, i = .kbApply m → ∃ tA tB rA rB,
      exec (if m.getLsbD 0 then .kbSet s.cfg.keyA else .kbClr s.cfg.keyA) s = .next tA ∧
      tA.results = s.results ++ [{ code := rA, detail := 0, payload := none }] ∧
      exec (if m.getLsbD 1 then .kbSet s.cfg.keyB else .kbClr s.cfg.keyB) tA = .next tB ∧
      tB.results = tA.results ++ [{ code := rB, detail := 0, payload := none }] ∧ t.kb = tB.kb ∧
      r.code = (if rA = .ok then rB else rA) ∧ r.detail.toNat = 16 * rB.toByte.toNat + rA.toByte.toNat) ∧
    (i = .kbSend → ∃ chr bytes, t.trace = s.trace ++ [.notify chr bytes (s.response 0)] ∧
      ∀ e, r.payload = some e ↔ s.response 0 = .other e) ∧
    (∀ l, i = .batNotify l → (r.code = .invalidBatteryLevel ↔ 100 < l.toNat) ∧
      (100 < l.toNat → t.trace = s.trace) ∧
      (l.toNat ≤ 100 → (∃ chr1 bytes1 chr2 bytes2,
          t.trace = s.trace ++ [.notify chr1 bytes1 (s.response 0), .notify chr2 bytes2 (s.response 1)]) ∧
        ∀ e, r.payload = some e ↔
          s.response 0 = .other e ∨ ((∀ e', s.response 0 ≠ .other e') ∧ s.response 1 = .other e)))

/-- R26: the encoding of the timer states, and 0b11 refused. -/
def Obligations.TimerStatesHaveTwoBitCodes : Prop :=
  (∀ t : TimerState, TimerState.ofBits t.encode = .ok t) ∧ TimerState.ofBits 0b00 = .ok .idle ∧
    TimerState.ofBits 0b01 = .ok .armed ∧ TimerState.ofBits 0b10 = .ok .queued ∧
    TimerState.ofBits 0b11 = .error .reservedTimerState

/-- R43: the five invariants are kept by every step, from any state that meets them. The spec marks it as its own
inference, from R24, R25, R32 and R35 and the operation rules. -/
def Obligations.StepKeepsTheInvariants : Prop :=
  ∀ s t : State, s.Inv → step s = .next t → t.Inv

/-- R43: the state after reset meets the invariants, and its configuration is legal. The spec marks it as its own
inference, from R24, R25, R32 and R35 and the operation rules. -/
def Obligations.ResetMeetsTheInvariants : Prop :=
  State.reset.Inv ∧ State.reset.cfg.legal

/-- R36, R60, R140, R170: every step keeps the trace made of legal events: a ButtonMask with bit 2 set is 0b111, a
report has eight bytes with byte 1 zero, and a hand-over has the length of its characteristic. R140 is the spec's own
inference from R108 and R134. -/
def Obligations.StepEmitsLegalEventsOnly : Prop :=
  ∀ s t : State, s.TraceLegal → step s = .next t → t.TraceLegal
end

