-- ==== Sys2Proof/Laws/Encoding.lean ====
section
/-! SUPPORT. Command words as numbers: the word of each instruction, the class and the fields of a word, and when the
decoder's two checks accept. -/

namespace Sys2Proof

/-- The word of each instruction as a number (R78). -/
theorem encode_toNat (i : Instr) : (encode i).toNat =
    match i with
    | .reset => 0x0000
    | .edge .A => 0x1000
    | .edge .B => 0x1001
    | .tick => 0x2000
    | .runDeb => 0x3000
    | .runLp => 0x3001
    | .reg => 0x4000
    | .kbSet c => 0x5000 + c.toNat
    | .kbClr c => 0x6000 + c.toNat
    | .kbApply m => 0x7000 + m.toNat
    | .kbSer => 0x8000
    | .kbSend => 0x8001
    | .batCompute l ch => 0x9000 + 256 * ch.toNat + l.toNat
    | .batNotify l => 0xA000 + l.toNat := by
  cases i with
  | edge b => cases b <;> rfl
  | kbSet c => revert c; decide
  | kbClr c => revert c; decide
  | kbApply m => revert m; decide
  | batCompute l ch => revert l; cases ch <;> decide
  | batNotify l => revert l; decide
  | _ => rfl

theorem classOf_eq (w : Word) : classOf w = w.toNat / 4096 := by
  have := w.isLt
  simp only [classOf, BitVec.extractLsb'_toNat, Nat.shiftRight_eq_div_pow]
  omega

/-- The two outcomes of the must-be-zero check. -/
theorem requireZero_cases {n : Nat} (bits : BitVec n) (i : Instr) :
    (bits.toNat = 0 ∧ requireZero bits i = .ok i) ∨ (bits.toNat ≠ 0 ∧ requireZero bits i = .error .mustBeZero) := by
  by_cases h : bits = 0
  · exact .inl ⟨by simp [h], if_pos h⟩
  · exact .inr ⟨fun e => h (BitVec.eq_of_toNat_eq (by simpa using e)), if_neg h⟩

theorem requireZero_eq_ok {n : Nat} {bits : BitVec n} {i j : Instr} :
    requireZero bits i = .ok j ↔ bits.toNat = 0 ∧ i = j := by
  obtain ⟨h, e⟩ | ⟨h, e⟩ := requireZero_cases bits i <;> rw [e] <;> simp [h]

theorem requireZero_eq_error {n : Nat} {bits : BitVec n} {i : Instr} {e : DecodeError} :
    requireZero bits i = .error e ↔ bits.toNat ≠ 0 ∧ e = .mustBeZero := by
  obtain ⟨h, e'⟩ | ⟨h, e'⟩ := requireZero_cases bits i <;> rw [e']
  · simp [h]
  · simp only [ne_eq, h, not_false_eq_true, true_and, Except.error.injEq]
    exact eq_comm

/-- The three outcomes of format S. -/
theorem decodeSub_cases (w : Word) (i j : Instr) :
    (w.toNat % 4096 = 0 ∧ decodeSub w i j = .ok i) ∨ (w.toNat % 4096 = 1 ∧ decodeSub w i j = .ok j) ∨
      (2 ≤ w.toNat % 4096 ∧ decodeSub w i j = .error .badSub) := by
  have h : (w.extractLsb' 0 12).toNat = w.toNat % 4096 := by simp [BitVec.extractLsb'_toNat]
  unfold decodeSub
  rw [h]
  match w.toNat % 4096 with
  | 0 => exact .inl ⟨rfl, rfl⟩
  | 1 => exact .inr (.inl ⟨rfl, rfl⟩)
  | n + 2 => exact .inr (.inr ⟨by omega, rfl⟩)

theorem decodeSub_eq_ok {w : Word} {i j k : Instr} :
    decodeSub w i j = .ok k ↔ (w.toNat % 4096 = 0 ∧ i = k) ∨ (w.toNat % 4096 = 1 ∧ j = k) := by
  obtain ⟨h, e⟩ | ⟨h, e⟩ | ⟨h, e⟩ := decodeSub_cases w i j <;> rw [e]
  · simp [h]
  · simp [h]
  · have h0 : w.toNat % 4096 ≠ 0 := by omega
    have h1 : w.toNat % 4096 ≠ 1 := by omega
    simp only [h0, h1, false_and, or_self, reduceCtorEq]

theorem decodeSub_eq_error {w : Word} {i j : Instr} {e : DecodeError} :
    decodeSub w i j = .error e ↔ 2 ≤ w.toNat % 4096 ∧ e = .badSub := by
  obtain ⟨h, e'⟩ | ⟨h, e'⟩ | ⟨h, e'⟩ := decodeSub_cases w i j <;> rw [e']
  · simp [h]
  · simp [h]
  · simp only [h, true_and, Except.error.injEq]
    exact eq_comm

end Sys2Proof
end

