-- ==== Sys2Proof/Laws/State.lean ====
section
/-! SUPPORT. What each named update of State leaves in each field, one lemma a field, true by `rfl`, so that no proof unfolds
a record update. -/

namespace Sys2Proof.Machine

variable (s : State)

/-! ## The end of an operation: `State.record` -/

@[simp] theorem State.record_now (r : Result) : (s.record r).now = s.now := rfl
@[simp] theorem State.record_deb (r : Result) : (s.record r).deb = s.deb := rfl
@[simp] theorem State.record_rawLevel (r : Result) : (s.record r).rawLevel = s.rawLevel := rfl
@[simp] theorem State.record_lastChangeTime (r : Result) : (s.record r).lastChangeTime = s.lastChangeTime := rfl
@[simp] theorem State.record_consumerReg (r : Result) : (s.record r).consumerReg = s.consumerReg := rfl
@[simp] theorem State.record_lastSettled (r : Result) : (s.record r).lastSettled = s.lastSettled := rfl
@[simp] theorem State.record_lp (r : Result) : (s.record r).lp = s.lp := rfl
@[simp] theorem State.record_kb (r : Result) : (s.record r).kb = s.kb := rfl
@[simp] theorem State.record_bat (r : Result) : (s.record r).bat = s.bat := rfl
@[simp] theorem State.record_cfg (r : Result) : (s.record r).cfg = s.cfg := rfl
@[simp] theorem State.record_commands (r : Result) : (s.record r).commands = s.commands := rfl
@[simp] theorem State.record_inputs (r : Result) : (s.record r).inputs = s.inputs := rfl
@[simp] theorem State.record_presented (r : Result) : (s.record r).presented = s.presented := rfl
@[simp] theorem State.record_trace (r : Result) : (s.record r).trace = s.trace := rfl
@[simp] theorem State.record_results (r : Result) : (s.record r).results = s.results ++ [r] := rfl

/-! ## `emit`: `State.emit` -/

@[simp] theorem State.emit_now (e : Event) : (s.emit e).now = s.now := rfl
@[simp] theorem State.emit_deb (e : Event) : (s.emit e).deb = s.deb := rfl
@[simp] theorem State.emit_rawLevel (e : Event) : (s.emit e).rawLevel = s.rawLevel := rfl
@[simp] theorem State.emit_lastChangeTime (e : Event) : (s.emit e).lastChangeTime = s.lastChangeTime := rfl
@[simp] theorem State.emit_consumerReg (e : Event) : (s.emit e).consumerReg = s.consumerReg := rfl
@[simp] theorem State.emit_lastSettled (e : Event) : (s.emit e).lastSettled = s.lastSettled := rfl
@[simp] theorem State.emit_lp (e : Event) : (s.emit e).lp = s.lp := rfl
@[simp] theorem State.emit_kb (e : Event) : (s.emit e).kb = s.kb := rfl
@[simp] theorem State.emit_bat (e : Event) : (s.emit e).bat = s.bat := rfl
@[simp] theorem State.emit_cfg (e : Event) : (s.emit e).cfg = s.cfg := rfl
@[simp] theorem State.emit_commands (e : Event) : (s.emit e).commands = s.commands := rfl
@[simp] theorem State.emit_inputs (e : Event) : (s.emit e).inputs = s.inputs := rfl
@[simp] theorem State.emit_presented (e : Event) : (s.emit e).presented = s.presented := rfl
@[simp] theorem State.emit_trace (e : Event) : (s.emit e).trace = s.trace ++ [e] := rfl
@[simp] theorem State.emit_results (e : Event) : (s.emit e).results = s.results := rfl

/-! ## `if p then emit`: `State.emitIf` -/

@[simp] theorem State.emitIf_now (p : Bool) (e : Event) : (s.emitIf p e).now = s.now := rfl
@[simp] theorem State.emitIf_deb (p : Bool) (e : Event) : (s.emitIf p e).deb = s.deb := rfl
@[simp] theorem State.emitIf_rawLevel (p : Bool) (e : Event) : (s.emitIf p e).rawLevel = s.rawLevel := rfl
@[simp] theorem State.emitIf_lastChangeTime (p : Bool) (e : Event) :
    (s.emitIf p e).lastChangeTime = s.lastChangeTime := rfl
@[simp] theorem State.emitIf_consumerReg (p : Bool) (e : Event) : (s.emitIf p e).consumerReg = s.consumerReg := rfl
@[simp] theorem State.emitIf_lastSettled (p : Bool) (e : Event) : (s.emitIf p e).lastSettled = s.lastSettled := rfl
@[simp] theorem State.emitIf_lp (p : Bool) (e : Event) : (s.emitIf p e).lp = s.lp := rfl
@[simp] theorem State.emitIf_kb (p : Bool) (e : Event) : (s.emitIf p e).kb = s.kb := rfl
@[simp] theorem State.emitIf_bat (p : Bool) (e : Event) : (s.emitIf p e).bat = s.bat := rfl
@[simp] theorem State.emitIf_cfg (p : Bool) (e : Event) : (s.emitIf p e).cfg = s.cfg := rfl
@[simp] theorem State.emitIf_commands (p : Bool) (e : Event) : (s.emitIf p e).commands = s.commands := rfl
@[simp] theorem State.emitIf_inputs (p : Bool) (e : Event) : (s.emitIf p e).inputs = s.inputs := rfl
@[simp] theorem State.emitIf_presented (p : Bool) (e : Event) : (s.emitIf p e).presented = s.presented := rfl
@[simp] theorem State.emitIf_trace (p : Bool) (e : Event) : (s.emitIf p e).trace = s.trace ++ eventIf p e := rfl
@[simp] theorem State.emitIf_results (p : Bool) (e : Event) : (s.emitIf p e).results = s.results := rfl

/-! ## Inputs presented: `State.give` -/

@[simp] theorem State.give_now (inp : Inputs) : (s.give inp).now = s.now := rfl
@[simp] theorem State.give_deb (inp : Inputs) : (s.give inp).deb = s.deb := rfl
@[simp] theorem State.give_rawLevel (inp : Inputs) : (s.give inp).rawLevel = s.rawLevel := rfl
@[simp] theorem State.give_lastChangeTime (inp : Inputs) : (s.give inp).lastChangeTime = s.lastChangeTime := rfl
@[simp] theorem State.give_consumerReg (inp : Inputs) : (s.give inp).consumerReg = s.consumerReg := rfl
@[simp] theorem State.give_lastSettled (inp : Inputs) : (s.give inp).lastSettled = s.lastSettled := rfl
@[simp] theorem State.give_lp (inp : Inputs) : (s.give inp).lp = s.lp := rfl
@[simp] theorem State.give_kb (inp : Inputs) : (s.give inp).kb = s.kb := rfl
@[simp] theorem State.give_bat (inp : Inputs) : (s.give inp).bat = s.bat := rfl
@[simp] theorem State.give_cfg (inp : Inputs) : (s.give inp).cfg = s.cfg := rfl
@[simp] theorem State.give_commands (inp : Inputs) : (s.give inp).commands = s.commands := rfl
@[simp] theorem State.give_inputs (inp : Inputs) : (s.give inp).inputs = inp := rfl
@[simp] theorem State.give_presented (inp : Inputs) : (s.give inp).presented = s.presented + 1 := rfl
@[simp] theorem State.give_trace (inp : Inputs) : (s.give inp).trace = s.trace := rfl
@[simp] theorem State.give_results (inp : Inputs) : (s.give inp).results = s.results := rfl

/-! ## A command presented: `State.present` -/

@[simp] theorem State.present_now (c : Command) (rest : List Command) : (s.present c rest).now = s.now := rfl
@[simp] theorem State.present_deb (c : Command) (rest : List Command) : (s.present c rest).deb = s.deb := rfl
@[simp] theorem State.present_rawLevel (c : Command) (rest : List Command) :
    (s.present c rest).rawLevel = s.rawLevel := rfl
@[simp] theorem State.present_lastChangeTime (c : Command) (rest : List Command) :
    (s.present c rest).lastChangeTime = s.lastChangeTime := rfl
@[simp] theorem State.present_consumerReg (c : Command) (rest : List Command) :
    (s.present c rest).consumerReg = s.consumerReg := rfl
@[simp] theorem State.present_lastSettled (c : Command) (rest : List Command) :
    (s.present c rest).lastSettled = s.lastSettled := rfl
@[simp] theorem State.present_lp (c : Command) (rest : List Command) : (s.present c rest).lp = s.lp := rfl
@[simp] theorem State.present_kb (c : Command) (rest : List Command) : (s.present c rest).kb = s.kb := rfl
@[simp] theorem State.present_bat (c : Command) (rest : List Command) : (s.present c rest).bat = s.bat := rfl
@[simp] theorem State.present_cfg (c : Command) (rest : List Command) : (s.present c rest).cfg = s.cfg := rfl
@[simp] theorem State.present_commands (c : Command) (rest : List Command) : (s.present c rest).commands = rest := rfl
@[simp] theorem State.present_inputs (c : Command) (rest : List Command) : (s.present c rest).inputs = c.inputs := rfl
@[simp] theorem State.present_presented (c : Command) (rest : List Command) :
    (s.present c rest).presented = s.presented + 1 := rfl
@[simp] theorem State.present_trace (c : Command) (rest : List Command) : (s.present c rest).trace = s.trace := rfl
@[simp] theorem State.present_results (c : Command) (rest : List Command) :
    (s.present c rest).results = s.results := rfl

/-! ## A level sample: `State.sample` -/

@[simp] theorem State.sample_now (lv : PerButton Bool) : (s.sample lv).now = s.now := rfl
@[simp] theorem State.sample_deb (lv : PerButton Bool) : (s.sample lv).deb = s.deb := rfl
@[simp] theorem State.sample_rawLevel (lv : PerButton Bool) : (s.sample lv).rawLevel = lv := rfl
@[simp] theorem State.sample_lastChangeTime (lv : PerButton Bool) :
    (s.sample lv).lastChangeTime = s.lastChangeTime := rfl
@[simp] theorem State.sample_consumerReg (lv : PerButton Bool) : (s.sample lv).consumerReg = s.consumerReg := rfl
@[simp] theorem State.sample_lastSettled (lv : PerButton Bool) : (s.sample lv).lastSettled = s.lastSettled := rfl
@[simp] theorem State.sample_lp (lv : PerButton Bool) : (s.sample lv).lp = s.lp := rfl
@[simp] theorem State.sample_kb (lv : PerButton Bool) : (s.sample lv).kb = s.kb := rfl
@[simp] theorem State.sample_bat (lv : PerButton Bool) : (s.sample lv).bat = s.bat := rfl
@[simp] theorem State.sample_cfg (lv : PerButton Bool) : (s.sample lv).cfg = s.cfg := rfl
@[simp] theorem State.sample_commands (lv : PerButton Bool) : (s.sample lv).commands = s.commands := rfl
@[simp] theorem State.sample_inputs (lv : PerButton Bool) : (s.sample lv).inputs = s.inputs := rfl
@[simp] theorem State.sample_presented (lv : PerButton Bool) : (s.sample lv).presented = s.presented := rfl
@[simp] theorem State.sample_trace (lv : PerButton Bool) : (s.sample lv).trace = s.trace := rfl
@[simp] theorem State.sample_results (lv : PerButton Bool) : (s.sample lv).results = s.results := rfl

/-! ## A transport call: `State.notify` -/

@[simp] theorem State.notify_now (k chr : Nat) (bytes : List Byte) : (s.notify k chr bytes).now = s.now := rfl
@[simp] theorem State.notify_deb (k chr : Nat) (bytes : List Byte) : (s.notify k chr bytes).deb = s.deb := rfl
@[simp] theorem State.notify_rawLevel (k chr : Nat) (bytes : List Byte) :
    (s.notify k chr bytes).rawLevel = s.rawLevel := rfl
@[simp] theorem State.notify_lastChangeTime (k chr : Nat) (bytes : List Byte) :
    (s.notify k chr bytes).lastChangeTime = s.lastChangeTime := rfl
@[simp] theorem State.notify_consumerReg (k chr : Nat) (bytes : List Byte) :
    (s.notify k chr bytes).consumerReg = s.consumerReg := rfl
@[simp] theorem State.notify_lastSettled (k chr : Nat) (bytes : List Byte) :
    (s.notify k chr bytes).lastSettled = s.lastSettled := rfl
@[simp] theorem State.notify_lp (k chr : Nat) (bytes : List Byte) : (s.notify k chr bytes).lp = s.lp := rfl
@[simp] theorem State.notify_kb (k chr : Nat) (bytes : List Byte) : (s.notify k chr bytes).kb = s.kb := rfl
@[simp] theorem State.notify_bat (k chr : Nat) (bytes : List Byte) : (s.notify k chr bytes).bat = s.bat := rfl
@[simp] theorem State.notify_cfg (k chr : Nat) (bytes : List Byte) : (s.notify k chr bytes).cfg = s.cfg := rfl
@[simp] theorem State.notify_commands (k chr : Nat) (bytes : List Byte) :
    (s.notify k chr bytes).commands = s.commands := rfl
@[simp] theorem State.notify_inputs (k chr : Nat) (bytes : List Byte) : (s.notify k chr bytes).inputs = s.inputs := rfl
@[simp] theorem State.notify_presented (k chr : Nat) (bytes : List Byte) :
    (s.notify k chr bytes).presented = s.presented := rfl
@[simp] theorem State.notify_trace (k chr : Nat) (bytes : List Byte) :
    (s.notify k chr bytes).trace = s.trace ++ [.notify chr bytes (s.response k)] := rfl
@[simp] theorem State.notify_results (k chr : Nat) (bytes : List Byte) :
    (s.notify k chr bytes).results = s.results := rfl

/-! ## Boot: `State.boot` -/

@[simp] theorem State.boot_now : s.boot.now = 0 := rfl
@[simp] theorem State.boot_deb : s.boot.deb = Timer.off := rfl
@[simp] theorem State.boot_rawLevel : s.boot.rawLevel = { a := false, b := false } := rfl
@[simp] theorem State.boot_lastChangeTime : s.boot.lastChangeTime = { a := 0, b := 0 } := rfl
@[simp] theorem State.boot_consumerReg : s.boot.consumerReg = false := rfl
@[simp] theorem State.boot_lastSettled : s.boot.lastSettled = 0 := rfl
@[simp] theorem State.boot_lp : s.boot.lp = Timer.off := rfl
@[simp] theorem State.boot_kb : s.boot.kb = Keyboard.reset := rfl
@[simp] theorem State.boot_bat : s.boot.bat = Battery.reset s.cfg.codes := rfl
@[simp] theorem State.boot_cfg : s.boot.cfg = s.cfg := rfl
@[simp] theorem State.boot_commands : s.boot.commands = s.commands := rfl
@[simp] theorem State.boot_inputs : s.boot.inputs = s.inputs := rfl
@[simp] theorem State.boot_presented : s.boot.presented = s.presented := rfl
@[simp] theorem State.boot_trace : s.boot.trace = s.trace := rfl
@[simp] theorem State.boot_results : s.boot.results = s.results := rfl

/-! ## Draws and fetching -/

@[simp] theorem State.levels_of_inputs (lv : PerButton Bool) (h : s.inputs.levels = some lv) : s.levels = lv := by
  simp [State.levels, h]

@[simp] theorem State.protocolMode_of_inputs (m : ProtocolMode) (h : s.inputs.mode = some m) : s.protocolMode = m := by
  simp [State.protocolMode, h]

theorem State.response_of_inputs {s : State} {k : Nat} {r : Response} (h : s.inputs.responses[k]? = some r) :
    s.response k = r := by
  simp [State.response, h]

theorem fetch_nil {s : State} (h : s.commands = []) : fetch s = none := by
  simp [fetch, h]

theorem fetch_cons {s : State} {c : Command} {rest : List Command} (h : s.commands = c :: rest) :
    fetch s = some (c.word, s.present c rest) := by
  simp [fetch, h]

end Sys2Proof.Machine
end

