-- ==== Sys2Proof/Laws/Ops.lean ====
section
/-! SUPPORT. One specification lemma for each shared operation: what it can do, to be cited instead of unfolding it. -/

namespace Sys2Proof.Machine

/-! ## The beginning and the end of an operation -/

theorem guarded_of_legal {s : State} (h : s.cfg.legal) (k : StepOutcome) : guarded s k = k :=
  if_pos h

theorem guarded_of_illegal {s : State} (h : ¬ s.cfg.legal) (k : StepOutcome) :
    guarded s k = .refused .illegalConfiguration :=
  if_neg h

theorem guarded_eq_next {s t : State} {k : StepOutcome} : guarded s k = .next t ↔ s.cfg.legal ∧ k = .next t := by
  cases h : s.cfg.legal <;> simp [guarded, h]

@[simp] theorem finish_eq_next {s t : State} {r : Result} : finish r s = .next t ↔ s.record r = t := by
  simp [finish]

/-! ## Buttons and samples -/

@[simp] theorem rawMask_bit0 (lv : PerButton Bool) : (rawMask lv).getLsbD 0 = lv.a := by
  cases lv with | mk a b => cases a <;> cases b <;> rfl

@[simp] theorem rawMask_bit1 (lv : PerButton Bool) : (rawMask lv).getLsbD 1 = lv.b := by
  cases lv with | mk a b => cases a <;> cases b <;> rfl

theorem rawMask_eq_both {lv : PerButton Bool} : rawMask lv = 0b11 ↔ lv = { a := true, b := true } := by
  cases lv with | mk a b => cases a <;> cases b <;> simp [rawMask]

/-! ## Key codes and configurations -/

theorem isModifier_iff {c : Byte} : isModifier c = true ↔ 224 ≤ c.toNat ∧ c.toNat ≤ 231 := by
  simp [isModifier]

theorem isNormal_iff {c : Byte} : isNormal c = true ↔ 1 ≤ c.toNat ∧ c.toNat ≤ 101 := by
  simp [isNormal]

theorem isKeyCode_iff {c : Byte} : isKeyCode c = true ↔
    (224 ≤ c.toNat ∧ c.toNat ≤ 231) ∨ (1 ≤ c.toNat ∧ c.toNat ≤ 101) := by
  simp [isKeyCode, isModifier_iff, isNormal_iff]

/-- What a legal configuration says of its parameters (R10). -/
theorem config_legal_iff {c : Config} : c.legal = true ↔
    (1 ≤ c.tDeb ∧ c.tDeb ≤ 65535) ∧ (1 ≤ c.tLp ∧ c.tLp ≤ 65535) ∧ isKeyCode c.keyA = true ∧
      isKeyCode c.keyB = true ∧ c.keyB ≠ c.keyA ∧ c.codes.legal = true ∧
      [c.chrLevel, c.chrStatus, c.chrKbReport, c.chrKbBoot].Nodup := by
  simp only [Config.legal, Bool.and_eq_true, decide_eq_true_eq, bne_iff_ne, ne_eq, and_assoc]

/-! ## Timers -/

theorem Timer.tick_of_not_armed {t : Timer} (h : t.state ≠ .armed) : t.tick = t :=
  if_neg h

theorem Timer.tick_expires {t : Timer} (h : t.state = .armed) (h1 : t.cnt = 1) :
    t.tick = { state := .queued, cnt := 0 } := by
  rw [Timer.tick, if_pos h, if_pos h1]

theorem Timer.tick_counts {t : Timer} (h : t.state = .armed) (h1 : t.cnt ≠ 1) :
    t.tick = { state := .armed, cnt := t.cnt - 1 } := by
  rw [Timer.tick, if_pos h, if_neg h1, h]

theorem Timer.off_disciplined (n : Nat) : Timer.off.Disciplined n :=
  .inr ⟨by decide, rfl⟩

theorem Timer.armedFor_disciplined {n : Nat} (h1 : 1 ≤ n) (h2 : n ≤ 65535) : (Timer.armedFor n).Disciplined n := by
  have e : (Timer.armedFor n).cnt.toNat = n := Nat.mod_eq_of_lt (by omega)
  exact .inl ⟨rfl, by omega, by omega⟩

theorem Timer.tick_disciplined {t : Timer} {n : Nat} (h : t.Disciplined n) : t.tick.Disciplined n := by
  obtain ⟨ha, hlo, hhi⟩ | ⟨ha, h0⟩ := h
  · by_cases h1 : t.cnt = 1
    · rw [Timer.tick_expires ha h1]
      exact .inr ⟨by decide, rfl⟩
    · have hne : t.cnt.toNat ≠ 1 := fun e => h1 (BitVec.eq_of_toNat_eq e)
      have hsub : (t.cnt - 1).toNat = t.cnt.toNat - 1 := by bv_omega
      rw [Timer.tick_counts ha h1]
      exact .inl ⟨rfl, by dsimp only; omega, by dsimp only; omega⟩
  · rw [Timer.tick_of_not_armed ha]
    exact .inr ⟨ha, h0⟩

theorem Timer.taken_disciplined {t : Timer} {n : Nat} (h : t.Disciplined n) (hq : t.state = .queued) :
    t.taken.Disciplined n := by
  obtain ⟨ha, _⟩ | ⟨_, h0⟩ := h
  · rw [hq] at ha
    cases ha
  · exact .inr ⟨by simp [Timer.taken], h0⟩

/-! ## Key slots -/

theorem Keyboard.find_eq_none {k : Keyboard} {c : Byte} : k.find c = none ↔ ∀ i : Fin 6, k.keys[i] ≠ c := by
  simp [Keyboard.find, Fin.forall_fin_succ]

/-- The slot `find` answers is the least one that holds the code (R153). -/
theorem Keyboard.find_eq_some {k : Keyboard} {c : Byte} {i : Fin 6} :
    k.find c = some i ↔ k.keys[i] = c ∧ ∀ j : Fin 6, j < i → k.keys[j] ≠ c := by
  have hfind : ∀ p : Fin 6 → Bool, [0, 1, 2, 3, 4, 5].find? p = some i ↔ p i ∧ ∀ j : Fin 6, j < i → ¬ p j := by
    revert i
    decide
  simp [Keyboard.find, hfind]

theorem Keyboard.setSlot_get (k : Keyboard) (i j : Fin 6) (c : Byte) :
    (k.setSlot i c).keys[j] = if i = j then c else k.keys[j] := by
  simp [Keyboard.setSlot, Vector.getElem_set, Fin.ext_iff]

@[simp] theorem Keyboard.setSlot_ctrl (k : Keyboard) (i : Fin 6) (c : Byte) : (k.setSlot i c).ctrl = k.ctrl := rfl

/-- Everything `set(c)` can do (R155). -/
theorem Keyboard.press_cases (k : Keyboard) (c : Byte) :
    (isModifier c ∧ k.press c = (.ok, { k with ctrl := k.ctrl ||| modifierBit c })) ∨
    (¬ isModifier c ∧ (∃ i : Fin 6, k.keys[i] = c) ∧ k.press c = (.ok, k)) ∨
    (¬ isModifier c ∧ (∀ i : Fin 6, k.keys[i] ≠ c) ∧ (∀ i : Fin 6, k.keys[i] ≠ 0) ∧
      k.press c = (.capacityExhausted, k)) ∨
    (¬ isModifier c ∧ (∀ i : Fin 6, k.keys[i] ≠ c) ∧ ∃ i : Fin 6, k.keys[i] = 0 ∧
      (∀ j : Fin 6, j < i → k.keys[j] ≠ 0) ∧ k.press c = (.ok, k.setSlot i c)) := by
  by_cases hm : isModifier c
  · exact .inl ⟨hm, by simp [Keyboard.press, hm]⟩
  cases hf : k.find c with
  | some i =>
    refine .inr (.inl ⟨hm, ⟨i, (Keyboard.find_eq_some.mp hf).1⟩, ?_⟩)
    simp [Keyboard.press, hm, hf]
  | none =>
    have habs := Keyboard.find_eq_none.mp hf
    cases he : k.find 0 with
    | none =>
      refine .inr (.inr (.inl ⟨hm, habs, Keyboard.find_eq_none.mp he, ?_⟩))
      rw [Keyboard.press, if_neg hm, hf, Keyboard.firstEmpty, he]; rfl
    | some i =>
      obtain ⟨h0, hlt⟩ := Keyboard.find_eq_some.mp he
      refine .inr (.inr (.inr ⟨hm, habs, i, h0, hlt, ?_⟩))
      rw [Keyboard.press, if_neg hm, hf, Keyboard.firstEmpty, he]; rfl

/-- Everything `clear(c)` can do (R157). -/
theorem Keyboard.release_cases (k : Keyboard) (c : Byte) :
    (isModifier c ∧ k.release c = (.ok, { k with ctrl := k.ctrl &&& ~~~modifierBit c })) ∨
    (¬ isModifier c ∧ (∀ i : Fin 6, k.keys[i] ≠ c) ∧ k.release c = (.keyNotFound, k)) ∨
    (¬ isModifier c ∧ ∃ i : Fin 6, k.keys[i] = c ∧ (∀ j : Fin 6, j < i → k.keys[j] ≠ c) ∧
      k.release c = (.ok, k.setSlot i 0)) := by
  by_cases hm : isModifier c
  · exact .inl ⟨hm, by simp [Keyboard.release, hm]⟩
  cases hf : k.find c with
  | none => exact .inr (.inl ⟨hm, Keyboard.find_eq_none.mp hf, by simp [Keyboard.release, hm, hf]⟩)
  | some i =>
    obtain ⟨h0, hlt⟩ := Keyboard.find_eq_some.mp hf
    exact .inr (.inr ⟨hm, i, h0, hlt, by simp [Keyboard.release, hm, hf]⟩)

theorem Keyboard.press_sound {k : Keyboard} {c : Byte} (h : k.SlotsSound) (hc : isKeyCode c) :
    (k.press c).2.SlotsSound := by
  obtain ⟨_, e⟩ | ⟨_, _, e⟩ | ⟨_, _, _, e⟩ | ⟨hm, habs, i, _, _, e⟩ := k.press_cases c <;> rw [e]
  · exact h
  · exact h
  · exact h
  · have hn : isNormal c := by simpa [isKeyCode, hm] using hc
    refine ⟨fun j => ?_, fun j j' hne heq => ?_⟩
    · simp only [Keyboard.setSlot_get]
      split
      · exact .inr hn
      · exact h.1 j
    · simp only [Keyboard.setSlot_get] at hne heq
      split at heq <;> split at heq
      · simp_all
      · exact absurd heq.symm (habs _)
      · exact absurd heq (habs _)
      · rename_i h1 h2
        simp only [h1, if_false] at hne
        exact h.2 j j' hne heq

theorem Keyboard.release_sound {k : Keyboard} (h : k.SlotsSound) (c : Byte) : (k.release c).2.SlotsSound := by
  obtain ⟨_, e⟩ | ⟨_, _, e⟩ | ⟨_, i, _, _, e⟩ := k.release_cases c <;> rw [e]
  · exact h
  · exact h
  · refine ⟨fun j => ?_, fun j j' hne heq => ?_⟩
    · simp only [Keyboard.setSlot_get]
      split
      · exact .inl rfl
      · exact h.1 j
    · simp only [Keyboard.setSlot_get] at hne heq
      split at heq <;> split at heq
      · simp_all
      · simp_all
      · simp_all
      · rename_i h1 h2
        simp only [h1, if_false] at hne
        exact h.2 j j' hne heq

theorem Keyboard.applyKey_sound {k : Keyboard} (h : k.SlotsSound) (down : Bool) {c : Byte} (hc : isKeyCode c) :
    (k.applyKey down c).2.SlotsSound := by
  cases down
  · exact Keyboard.release_sound h c
  · exact Keyboard.press_sound h hc

@[simp] theorem Keyboard.serialize_length (k : Keyboard) : k.serialize.length = 8 := by
  simp [Keyboard.serialize]

theorem Keyboard.reset_sound : Keyboard.reset.SlotsSound := by
  decide

/-! ## Battery status -/

@[simp] theorem computeStatus_flags (k : Codes) (l : Byte) (ch : Bool) : (computeStatus k l ch).2 = 0 := by
  cases ch <;> rfl

/-- The word R194 packs has no bit above bit 9 set (R37, R208). -/
theorem packPowerState_high (a b c d e : Nat) : (packPowerState a b c d e).extractLsb' 10 6 = 0 := by
  ext i hi
  have : i = 0 ∨ i = 1 ∨ i = 2 ∨ i = 3 ∨ i = 4 ∨ i = 5 := by omega
  rcases this with rfl | rfl | rfl | rfl | rfl | rfl <;>
    simp [packPowerState, subField, BitVec.getElem_extractLsb']

theorem computeStatus_high (k : Codes) (l : Byte) (ch : Bool) :
    (computeStatus k l ch).1.extractLsb' 10 6 = 0 := by
  cases ch <;> exact packPowerState_high ..

theorem Battery.compute_consistent (k : Codes) (l : Byte) (ch : Bool) : (Battery.compute k l ch).Consistent k :=
  ⟨computeStatus_flags k l ch, computeStatus_high k l ch, rfl⟩

@[simp] theorem statusBytes_length (layout : StatusLayout) (ps : Word) (fl : Byte) :
    (statusBytes layout ps fl).length = 3 := by
  cases layout <;> rfl

end Sys2Proof.Machine
end

