-- ==== Sys2Proof/Laws/Exec.lean ====
section
/-! SUPPORT. For each operation, exactly when it answers a next state and which one: the one lemma a proof about the
operation cites. -/

namespace Sys2Proof.Machine

variable {s t : State}

theorem execReset_next : execReset s = .next t ↔ s.cfg.legal ∧ s.boot.record Result.ok = t := by
  simp only [execReset, guarded_eq_next, finish_eq_next]

theorem execEdge_next {b : Button} : execEdge b s = .next t ↔
    s.cfg.legal ∧
      ({ s with deb := Timer.armedFor s.cfg.tDeb, lastChangeTime := s.lastChangeTime.set b s.now } : State).record
        Result.ok = t := by
  simp only [execEdge, guarded_eq_next, finish_eq_next]

theorem execTick_next : execTick s = .next t ↔
    s.cfg.legal ∧
      ({ s with now := s.now + 1, deb := s.deb.tick, lp := s.lp.tick } : State).record Result.ok = t := by
  simp only [execTick, guarded_eq_next, finish_eq_next]

theorem execRunDeb_next : execRunDeb s = .next t ↔
    s.cfg.legal ∧ s.deb.state = .queued ∧ (settle s s.levels).record Result.ok = t := by
  simp only [execRunDeb, guarded_eq_next]
  by_cases h : s.deb.state = .queued <;> simp [h]

theorem execReg_next : execReg s = .next t ↔
    s.cfg.legal ∧ ({ s with consumerReg := true } : State).record Result.ok = t := by
  simp only [execReg, guarded_eq_next, finish_eq_next]

theorem execRunLp_next : execRunLp s = .next t ↔
    s.cfg.legal ∧ s.lp.state = .queued ∧ (expire s s.levels).record Result.ok = t := by
  simp only [execRunLp, guarded_eq_next]
  by_cases h : s.lp.state = .queued <;> simp [h]

theorem execKbSet_next {c : Byte} : execKbSet c s = .next t ↔
    s.cfg.legal ∧ isKeyCode c ∧
      ({ s with kb := (s.kb.press c).2 } : State).record (Result.plain (s.kb.press c).1) = t := by
  simp only [execKbSet, guarded_eq_next]
  cases h : isKeyCode c <;> simp

theorem execKbClr_next {c : Byte} : execKbClr c s = .next t ↔
    s.cfg.legal ∧ isKeyCode c ∧
      ({ s with kb := (s.kb.release c).2 } : State).record (Result.plain (s.kb.release c).1) = t := by
  simp only [execKbClr, guarded_eq_next]
  cases h : isKeyCode c <;> simp

theorem execKbApply_next {m : ButtonMask} : execKbApply m s = .next t ↔
    s.cfg.legal ∧
      ({ s with kb := ((s.kb.applyKey (m.getLsbD 0) s.cfg.keyA).2.applyKey (m.getLsbD 1) s.cfg.keyB).2 } :
        State).record (Result.ofApply (s.kb.applyKey (m.getLsbD 0) s.cfg.keyA).1
          ((s.kb.applyKey (m.getLsbD 0) s.cfg.keyA).2.applyKey (m.getLsbD 1) s.cfg.keyB).1) = t := by
  simp only [execKbApply, guarded_eq_next, finish_eq_next]

theorem execKbSer_next : execKbSer s = .next t ↔
    s.cfg.legal ∧ (s.emit (.report s.kb.serialize)).record Result.ok = t := by
  simp only [execKbSer, guarded_eq_next, finish_eq_next]

theorem execKbSend_next : execKbSend s = .next t ↔
    s.cfg.legal ∧
      (s.notify 0 (reportCharacteristic s.cfg s.protocolMode) s.kb.serialize).record
        (Result.ofResponse (s.response 0)) = t := by
  simp only [execKbSend, guarded_eq_next, finish_eq_next]

theorem execBatCompute_next {l : Byte} {ch : Bool} : execBatCompute l ch s = .next t ↔
    s.cfg.legal ∧ ({ s with bat := Battery.compute s.cfg.codes l ch } : State).record Result.ok = t := by
  simp only [execBatCompute, guarded_eq_next, finish_eq_next]

theorem execBatNotify_next {l : Byte} : execBatNotify l s = .next t ↔
    s.cfg.legal ∧
      ((100 < l.toNat ∧ s.record (Result.plain .invalidBatteryLevel) = t) ∨
        (l.toNat ≤ 100 ∧
          ((s.notify 0 s.cfg.chrLevel [l]).notify 1 s.cfg.chrStatus
            (statusBytes s.cfg.statusLayout s.bat.powerState s.bat.flags)).record
              (Result.ofResponses (s.response 0) (s.response 1)) = t)) := by
  simp only [execBatNotify, guarded_eq_next]
  by_cases h : 100 < l.toNat
  · simp [h, Nat.not_le.mpr h]
  · simp [h, Nat.not_lt.mp h]

/-! ## The two samples: settlement and expiry, field by field -/

variable (s : State) (lv : PerButton Bool)

@[simp] theorem settle_now : (settle s lv).now = s.now := rfl
@[simp] theorem settle_deb : (settle s lv).deb = s.deb.taken := rfl
@[simp] theorem settle_rawLevel : (settle s lv).rawLevel = lv := rfl
@[simp] theorem settle_lastChangeTime : (settle s lv).lastChangeTime = s.lastChangeTime := rfl
@[simp] theorem settle_consumerReg : (settle s lv).consumerReg = s.consumerReg := rfl
@[simp] theorem settle_lastSettled : (settle s lv).lastSettled = rawMask lv := rfl
@[simp] theorem settle_lp : (settle s lv).lp = longPressAfter s (rawMask lv) := rfl
@[simp] theorem settle_kb : (settle s lv).kb = s.kb := rfl
@[simp] theorem settle_bat : (settle s lv).bat = s.bat := rfl
@[simp] theorem settle_cfg : (settle s lv).cfg = s.cfg := rfl
@[simp] theorem settle_commands : (settle s lv).commands = s.commands := rfl
@[simp] theorem settle_inputs : (settle s lv).inputs = s.inputs := rfl
@[simp] theorem settle_presented : (settle s lv).presented = s.presented := rfl
@[simp] theorem settle_results : (settle s lv).results = s.results := rfl

theorem settle_trace : (settle s lv).trace =
    s.trace ++ eventIf (settlementSends s (rawMask lv) && s.consumerReg) (.button (0#1 ++ rawMask lv)) := rfl

@[simp] theorem expire_now : (expire s lv).now = s.now := rfl
@[simp] theorem expire_deb : (expire s lv).deb = s.deb := rfl
@[simp] theorem expire_rawLevel : (expire s lv).rawLevel = lv := rfl
@[simp] theorem expire_lastChangeTime : (expire s lv).lastChangeTime = s.lastChangeTime := rfl
@[simp] theorem expire_consumerReg : (expire s lv).consumerReg = s.consumerReg := rfl
@[simp] theorem expire_lastSettled : (expire s lv).lastSettled = s.lastSettled := rfl
@[simp] theorem expire_lp : (expire s lv).lp = s.lp.taken := rfl
@[simp] theorem expire_kb : (expire s lv).kb = s.kb := rfl
@[simp] theorem expire_bat : (expire s lv).bat = s.bat := rfl
@[simp] theorem expire_cfg : (expire s lv).cfg = s.cfg := rfl
@[simp] theorem expire_commands : (expire s lv).commands = s.commands := rfl
@[simp] theorem expire_inputs : (expire s lv).inputs = s.inputs := rfl
@[simp] theorem expire_presented : (expire s lv).presented = s.presented := rfl
@[simp] theorem expire_results : (expire s lv).results = s.results := rfl

theorem expire_trace : (expire s lv).trace =
    s.trace ++ eventIf (lv.a && lv.b && s.consumerReg) (.button 0b111) := rfl

/-! ## The stream does not matter to an operation -/

/-- No operation reads or writes the commands yet to come (R21). -/
theorem exec_withCommands (i : Instr) (s : State) (c : List Command) :
    exec i { s with commands := c } =
      match exec i s with
      | .next t => .next { t with commands := c }
      | .fault f => .fault f
      | .refused r => .refused r := by
  cases i <;>
    simp only [exec, execReset, execEdge, execTick, execRunDeb, execRunLp, execReg, execKbSet, execKbClr, execKbApply,
      execKbSer, execKbSend, execBatCompute, execBatNotify, guarded, finish] <;>
    cases s.cfg.legal <;> simp only [if_true, Bool.false_eq_true, if_false] <;> first | rfl | (split <;> rfl)

/-! ## Runs -/

variable {s}

@[simp] theorem runOps_nil : runOps [] s = .next s := rfl

theorem runOps_cons {i : Instr} {inp : Inputs} {rest : List Presented} :
    runOps ((i, inp) :: rest) s = .next t ↔ ∃ u, exec i (s.give inp) = .next u ∧ runOps rest u = .next t := by
  simp only [runOps]
  cases exec i (s.give inp) <;> simp

theorem runOps_append {a b : List Presented} :
    runOps (a ++ b) s = .next t ↔ ∃ u, runOps a s = .next u ∧ runOps b u = .next t := by
  induction a generalizing s with
  | nil => simp
  | cons op rest ih =>
    obtain ⟨i, inp⟩ := op
    simp only [List.cons_append, runOps_cons, ih]
    constructor
    · rintro ⟨u, h1, v, h2, h3⟩
      exact ⟨v, ⟨u, h1, h2⟩, h3⟩
    · rintro ⟨v, ⟨u, h1, h2⟩, h3⟩
      exact ⟨u, h1, v, h2, h3⟩

end Sys2Proof.Machine
end

