-- ==== Sys2Proof/Laws/PerInstr.lean ====
section
/-! SUPPORT. The family `OpcodeMap`: what is said of every instruction as syntax, one lemma per constructor. -/

namespace Sys2Proof.Laws.OpcodeMap

/-- R73, R78: the word of the instruction matches a row of the opcode map, and that row is the one of its mnemonic. -/
def Statement (i : Instr) : Prop :=
  ∃ r ∈ opcodeRows, r.mnemonic = i.mnemonic ∧ r.Matches (encode i)

/-- The `n`-th row of the map serves the instruction when its mnemonic and its bits agree. -/
theorem statement_of_row {i : Instr} {r : OpcodeRow} (n : Nat) (hr : opcodeRows[n]? = some r)
    (hm : r.mnemonic = i.mnemonic) (hw : r.Matches (encode i)) : Statement i :=
  ⟨r, List.mem_of_getElem? hr, hm, hw⟩

theorem reset : Statement .reset := statement_of_row 0 rfl rfl (by decide)

theorem edge (b : Button) : Statement (.edge b) := statement_of_row 1 rfl rfl (by cases b <;> decide)

theorem tick : Statement .tick := statement_of_row 2 rfl rfl (by decide)

theorem runDeb : Statement .runDeb := statement_of_row 3 rfl rfl (by decide)

theorem runLp : Statement .runLp := statement_of_row 4 rfl rfl (by decide)

theorem reg : Statement .reg := statement_of_row 5 rfl rfl (by decide)

theorem kbSet (c : Byte) : Statement (.kbSet c) := statement_of_row 6 rfl rfl (by revert c; decide)

theorem kbClr (c : Byte) : Statement (.kbClr c) := statement_of_row 7 rfl rfl (by revert c; decide)

theorem kbApply (m : ButtonMask) : Statement (.kbApply m) := statement_of_row 8 rfl rfl (by revert m; decide)

theorem kbSer : Statement .kbSer := statement_of_row 9 rfl rfl (by decide)

theorem kbSend : Statement .kbSend := statement_of_row 10 rfl rfl (by decide)

theorem batCompute (l : Byte) (ch : Bool) : Statement (.batCompute l ch) :=
  statement_of_row 11 rfl rfl (by revert l; cases ch <;> decide)

theorem batNotify (l : Byte) : Statement (.batNotify l) := statement_of_row 12 rfl rfl (by revert l; decide)

end Sys2Proof.Laws.OpcodeMap
end

