-- ==== Sys2Proof/WellFormed.lean ====
section
/-! DEFINITION. Which instructions are legal as written (spec/30_encoding.md R76): the check on an operand that
needs no state. Every value of `Instr` has a command word, well-formed or not (R74, R76). -/

namespace Sys2Proof

/-- R76, R152: KB_SET and KB_CLR take a modifier or normal code; no other operand is restricted
(BAT_NOTIFY above 100 is an error result, not an illegal operation). -/
def Instr.wellFormed (i : Instr) : Bool :=
  match i with
  | .kbSet c => Machine.isKeyCode c
  | .kbClr c => Machine.isKeyCode c
  | .reset => true
  | .edge _ => true
  | .tick => true
  | .runDeb => true
  | .runLp => true
  | .reg => true
  | .kbApply _ => true
  | .kbSer => true
  | .kbSend => true
  | .batCompute _ _ => true
  | .batNotify _ => true

end Sys2Proof
end

