-- ==== Sys2Proof/Tests/Slice0.lean ====
section
/-! SUPPORT. The model's own tests: well-formedness, the words of spec/95_test_vectors.md section 2.1, one step of each
operation on vectors worked out there by hand, and a state and operands that meet the hypotheses of each statement. -/

namespace Sys2Proof.Tests

open Sys2Proof.Machine

/-! ## Small states and outcomes -/

/-- The state an outcome leaves; the reset state where it leaves none. -/
def after (o : StepOutcome) : State :=
  match o with
  | .next t => t
  | .fault _ => State.reset
  | .refused _ => State.reset

/-- Does the outcome leave a state? -/
def goesOn (o : StepOutcome) : Bool :=
  match o with
  | .next _ => true
  | .fault _ => false
  | .refused _ => false

theorem next_after {o : StepOutcome} (h : goesOn o = true) : o = .next (after o) := by
  cases o with
  | next t => rfl
  | fault f => cases h
  | refused r => cases h

/-- The refusal an outcome is, if it is one. -/
def refusalOf (o : StepOutcome) : Option Refusal :=
  match o with
  | .next _ => none
  | .fault _ => none
  | .refused r => some r

/-- Inputs that name the two levels. -/
def seen (a b : Bool) : Inputs :=
  { Inputs.free with levels := some { a := a, b := b } }

/-- Inputs that name the responses of the operation's calls. -/
def answers (rs : List Response) : Inputs :=
  { Inputs.free with responses := rs }

def queued : Timer := { state := .queued, cnt := 0 }

/-- The reset state with a consumer, the debounce timer QUEUED and the levels `a`, `b` at hand. -/
def settling (a b : Bool) : State :=
  { State.reset with consumerReg := true, deb := queued, inputs := seen a b }

/-- The reset state with a consumer, the long-press timer QUEUED and the levels `a`, `b` at hand. -/
def expiring (a b : Bool) : State :=
  { State.reset with consumerReg := true, lp := queued, inputs := seen a b }

/-- The reset state with the slots given. -/
def holding (keys : Vector Byte 6) : State :=
  { State.reset with kb := { ctrl := 0, keys := keys } }

/-- The reset state with the key codes of the two buttons. -/
def keyed (keyA keyB : Byte) (s : State) : State :=
  { s with cfg := { s.cfg with keyA := keyA, keyB := keyB } }

/-- The reset state with short periods: two ticks of quiet, one of holding. -/
def quick : State :=
  { State.reset with cfg := { Config.initial with tDeb := 2, tLp := 1 } }

/-- The reset state with illegal periods. -/
def broken : State :=
  { State.reset with cfg := { Config.initial with tDeb := 0 } }

/-! ## WellFormed (R150, R152, R76) -/

theorem test_illFormed_kbSet :
    ([0, 102, 223, 232].all fun c => (Instr.kbSet c).wellFormed == false) = true := by decide

theorem test_illFormed_kbClr :
    ([0, 102, 223, 255].all fun c => (Instr.kbClr c).wellFormed == false) = true := by decide

theorem test_wellFormed :
    ([Instr.kbSet 1, .kbSet 101, .kbSet 224, .kbClr 231, .kbApply 0b111, .batNotify 255].all Instr.wellFormed)
      = true := by decide

/-! ## Words (section 2.1): class nibble, zeros, then the operand's bits -/

theorem test_decode_debounce :
    decode 0b0000_0000_0000_0000 = .ok .reset ∧ decode 0b0001_0000_0000_0000 = .ok (.edge .A) ∧
    decode 0b0001_0000_0000_0001 = .ok (.edge .B) ∧ decode 0b0010_0000_0000_0000 = .ok .tick ∧
    decode 0b0011_0000_0000_0000 = .ok .runDeb ∧ decode 0b0100_0000_0000_0000 = .ok .reg := by decide

theorem test_decode_longpress : decode 0b0011_0000_0000_0001 = .ok .runLp := by decide

theorem test_decode_keyboard :
    decode 0b0101_0000_0000_0000 = .ok (.kbSet 0) ∧ decode 0b0101_0000_1110_0111 = .ok (.kbSet 231) ∧
    decode 0b0110_0000_0110_0101 = .ok (.kbClr 101) ∧ decode 0b0111_0000_0000_0111 = .ok (.kbApply 0b111) ∧
    decode 0b0111_0000_0000_0010 = .ok (.kbApply 0b010) ∧ decode 0b1000_0000_0000_0000 = .ok .kbSer ∧
    decode 0b1000_0000_0000_0001 = .ok .kbSend := by decide

theorem test_decode_battery :
    decode 0b1001_0000_0000_0000 = .ok (.batCompute 0 false) ∧
    decode 0b1001_0001_1111_1111 = .ok (.batCompute 255 true) ∧
    decode 0b1010_0000_1111_1111 = .ok (.batNotify 255) := by decide

theorem test_decode_illegal :
    ([0x0001, 0x1002, 0x1800, 0x2001, 0x3002, 0x4100, 0x5165, 0x6FFF, 0x7008, 0x8002, 0x9200, 0xA100, 0xB000, 0xC123,
      0xFFFF].all fun w : Word => (decode w).toOption == none) = true := by decide

/-- Section 2.1: 0x9132 is stored as `32 91`, 0x1001 as `01 10`. -/
theorem test_bytes :
    encodeBytes (.batCompute 50 true) = [0x32, 0x91] ∧ encodeBytes (.edge .B) = [0x01, 0x10] ∧
    decodeBytes [0x32, 0x91, 0xFF] = .ok (.batCompute 50 true, [0xFF]) ∧ decodeBytes [0x32] = .error .truncated := by
  decide

theorem test_tableWord :
    decodeTableWord 16 0x50E0 = some (.kbSet 224) ∧ decodeTableWord 16 0x9132 = some (.batCompute 50 true) ∧
    decodeTableWord 16 0xB000 = none := by decide

theorem test_withFetchWord :
    (after (step (State.reset.withFetchWord 16 0x50E0))).kb.ctrl = 0x01 ∧
    (after (step (State.reset.withFetchWord 16 0x4000))).consumerReg = true := by decide

/-- R240: with no command left the run has ended. -/
theorem test_endOfRun : goesOn (step State.reset) = false ∧ refusalOf (step State.reset) = none := by decide

/-! ## One step of each operation -/

/-- V-X1. -/
theorem test_reset_rebuilds :
    let t := after (exec .reset
      { expiring true true with
        now := 500, deb := Timer.armedFor 3, lastSettled := 0b11
        kb := { ctrl := 0x01, keys := #v[4, 0, 0, 0, 0, 0] }
        bat := Battery.compute Codes.default 15 true, trace := [.button 0b011] })
    (t.now = 0 ∧ t.deb = Timer.off ∧ t.lp = Timer.off ∧ t.consumerReg = false) ∧
      (t.lastSettled = 0 ∧ t.kb = Keyboard.reset ∧ t.bat.level = 100 ∧ t.bat.powerState = 0x0045) ∧
      t.trace = [.button 0b011] := by decide

/-- V-E1. -/
theorem test_edge_arms :
    let t := after (exec (.edge .A) { State.reset with now := 100 })
    t.deb = { state := .armed, cnt := 20 } ∧ t.lastChangeTime = { a := 100, b := 0 } ∧ t.now = 100 := by decide

/-- V-E3, V-E4: a queued firing is dropped; the long-press timer is not touched. -/
theorem test_edge_rearms :
    let t := after (exec (.edge .B) { State.reset with deb := queued, lp := Timer.armedFor 10 })
    t.deb = { state := .armed, cnt := 20 } ∧ t.lp = { state := .armed, cnt := 10 } := by decide

/-- V-T1, V-T2, V-T3. -/
theorem test_tick_counts :
    let t := after (exec .tick
      { State.reset with now := 0xFFFFFFFF, deb := Timer.armedFor 2, lp := Timer.armedFor 1 })
    t.now = 0 ∧ t.deb = { state := .armed, cnt := 1 } ∧ t.lp = queued := by decide

/-- V-T4. -/
theorem test_tick_waits :
    let t := after (exec .tick { State.reset with deb := queued })
    t.deb = queued ∧ t.lp = Timer.off ∧ t.now = 1 := by decide

/-- V-S5. -/
theorem test_runDeb_emits :
    let t := after (exec .runDeb (settling true true))
    t.trace = [.button 0b011] ∧ t.lp = { state := .armed, cnt := 3000 } ∧ t.deb.state = .idle ∧ t.lastSettled = 0b11 := by
  decide

/-- V-S8, with the sample of V-S4: B alone is bit 1, and the queued long press is dropped. -/
theorem test_runDeb_cancels :
    let t := after (exec .runDeb { settling false true with lp := queued })
    t.trace = [.button 0b010] ∧ t.lp = Timer.off ∧ t.rawLevel = { a := false, b := true } := by decide

/-- V-L3, V-L7: the event comes whatever `last_settled` is, which stays. -/
theorem test_runLp_emits :
    let t := after (exec .runLp { expiring true true with lastSettled := 0b10 })
    t.trace = [.button 0b111] ∧ t.lp.state = .idle ∧ t.lastSettled = 0b10 ∧ t.rawLevel = { a := true, b := true } := by
  decide

/-- V-L4. -/
theorem test_runLp_released :
    let t := after (exec .runLp (expiring true false))
    t.trace = [] ∧ t.lp.state = .idle ∧ t.rawLevel = { a := true, b := false } := by decide

/-- V-R1. -/
theorem test_reg : (after (exec .reg State.reset)).consumerReg = true := by decide

/-- V-K16: the hole is refilled. -/
theorem test_kbSet_hole :
    (after (exec (.kbSet 7) (holding #v[4, 0, 6, 0, 0, 0]))).kb.keys = #v[4, 7, 6, 0, 0, 0] := by decide

/-- V-K14. -/
theorem test_kbSet_full :
    let t := after (exec (.kbSet 10) (holding #v[4, 5, 6, 7, 8, 9]))
    t.kb.keys = #v[4, 5, 6, 7, 8, 9] ∧ t.results = [Result.plain .capacityExhausted] := by decide

/-- V-K17: no compaction. -/
theorem test_kbClr_hole :
    (after (exec (.kbClr 5) (holding #v[4, 5, 6, 0, 0, 0]))).kb.keys = #v[4, 0, 6, 0, 0, 0] := by decide

/-- V-K11. -/
theorem test_kbClr_modifier :
    (after (exec (.kbClr 224) { State.reset with kb := { ctrl := 0x81, keys := #v[0, 0, 0, 0, 0, 0] } })).kb.ctrl
      = 0x80 := by decide

/-- V-A7: key A kept, not undone. -/
theorem test_kbApply_keeps :
    let t := after (exec (.kbApply 0b011) (keyed 4 5 (holding #v[1, 2, 3, 6, 7, 0])))
    t.kb.keys = #v[1, 2, 3, 6, 7, 4] ∧
      t.results = [{ code := .capacityExhausted, detail := 0x10, payload := none }] := by decide

/-- V-A8: key A's code is the primary one. -/
theorem test_kbApply_first :
    let t := after (exec (.kbApply 0b010) (keyed 4 5 (holding #v[1, 2, 3, 6, 7, 8])))
    t.kb.keys = #v[1, 2, 3, 6, 7, 8] ∧ t.results = [{ code := .keyNotFound, detail := 0x12, payload := none }] := by
  decide

/-- V-K21. -/
theorem test_kbSer :
    (after (exec .kbSer { State.reset with kb := { ctrl := 0x05, keys := #v[0, 0, 9, 0, 101, 0] } })).trace
      = [.report [0x05, 0x00, 0x00, 0x00, 0x09, 0x00, 0x65, 0x00]] := by decide

/-- V-K23: `CHR_KB_BOOT` is 3 in `Config.initial`. -/
theorem test_kbSend_boot :
    (after (exec .kbSend { holding #v[4, 0, 0, 0, 0, 0] with
      inputs := { levels := none, mode := some .boot, responses := [.ok] } })).trace
        = [.notify 3 [0, 0, 4, 0, 0, 0, 0, 0] .ok] := by decide

/-- V-K25. -/
theorem test_kbSend_other :
    (after (exec .kbSend { holding #v[4, 0, 0, 0, 0, 0] with
      inputs := { levels := none, mode := some .report, responses := [.other 9] } })).results
        = [{ code := .transportOther, detail := 0, payload := some 9 }] := by decide

/-- Section 2.6: `BAT_COMPUTE 9, 1` and `BAT_COMPUTE 10, 1`. -/
theorem test_batCompute_low :
    (after (exec (.batCompute 9 true) State.reset)).bat.powerState = 0x03A3 ∧
    (after (exec (.batCompute 10 true) State.reset)).bat.powerState = 0x0323 := by decide

/-- Section 2.6: `BAT_COMPUTE 19, 1`, `BAT_COMPUTE 20, 1`, `BAT_COMPUTE 255, 0`. -/
theorem test_batCompute_high :
    (after (exec (.batCompute 19 true) State.reset)).bat.powerState = 0x0323 ∧
    (after (exec (.batCompute 20 true) State.reset)).bat.powerState = 0x02A3 ∧
    (after (exec (.batCompute 255 false) State.reset)).bat.powerState = 0x0045 := by decide

/-- V-B12 and V-B4: the status of the state, the level of the operand, the level call's failure first. -/
theorem test_batNotify_calls :
    let t := after (exec (.batNotify 80)
      { State.reset with bat := Battery.compute Codes.default 15 true, inputs := answers [.other 1, .other 2] })
    t.trace = [.notify 0 [0x50] (.other 1), .notify 1 [0x23, 0x03, 0x00] (.other 2)] ∧
      t.results = [{ code := .transportOther, detail := 0, payload := some 1 }] := by decide

/-- V-B10. -/
theorem test_batNotify_invalid :
    let t := after (exec (.batNotify 101) State.reset)
    t.trace = [] ∧ t.results = [Result.plain .invalidBatteryLevel] := by decide

/-! ## Witnesses: the hypotheses of each statement are met -/

/-- EncodeOfDecodeIsWord; WordDecodesToItsOneOpcodeRow, each clause. -/
theorem witness_decodedWord :
    decode 0x91FF = .ok (.batCompute 255 true) ∧ (∃ r ∈ opcodeRows, r.Matches 0x91FF) := by decide

/-- IllegalWordsAreTheListedOnes: the illegal word at each bound of its list, and the legal word beside it. -/
theorem witness_illegalWord :
    ([0xB000, 0x0001, 0x2001, 0x4001, 0x1002, 0x3002, 0x8002, 0x5100, 0x6100, 0xA100, 0x7008, 0x9200].all
      fun w : Word => (decode w).toOption == none) = true ∧
    ([0xAFFF &&& 0xF0FF, 0x0000, 0x2000, 0x4000, 0x1001, 0x3001, 0x8001, 0x50FF, 0x60FF, 0xA0FF, 0x7007, 0x91FF].all
      fun w : Word => (decode w).toOption != none) = true := by decide

/-- IllegalWordsAreTheListedOnes, its second clause. -/
theorem witness_illegalCommand :
    ∃ (s : State) (c : Command) (rest : List Command) (e : DecodeError),
      s.commands = c :: rest ∧ decode c.word = .error e :=
  ⟨State.reset.withFetchWord 16 0xB000, ⟨0xB000, Inputs.free⟩, [], .reservedClass, by decide, by decide⟩

/-- OperandsAreTheirBits: each clause at both ends of its operand. -/
theorem witness_operands :
    decode 0x1000 = .ok (.edge .A) ∧ decode 0x1001 = .ok (.edge .B) ∧ decode 0x5000 = .ok (.kbSet 0) ∧
    decode 0x50FF = .ok (.kbSet 255) ∧ decode 0x6000 = .ok (.kbClr 0) ∧ decode 0x60FF = .ok (.kbClr 255) ∧
    decode 0x7000 = .ok (.kbApply 0) ∧ decode 0x7007 = .ok (.kbApply 7) ∧ decode 0x9000 = .ok (.batCompute 0 false) ∧
    decode 0x91FF = .ok (.batCompute 255 true) ∧ decode 0xA000 = .ok (.batNotify 0) ∧
    decode 0xA0FF = .ok (.batNotify 255) := by decide

/-- StoredCommandIsLowByteFirst. -/
theorem witness_storedCommand :
    (encode (.batCompute 50 true)).toNat = (0x32 : Byte).toNat + 256 * (0x91 : Byte).toNat := by decide

/-- StepPerformsThePresentedOperation. -/
theorem witness_presented :
    ∃ (s : State) (c : Command) (rest : List Command) (i : Instr), s.commands = c :: rest ∧ decode c.word = .ok i :=
  ⟨State.reset.withFetchWord 16 0x1001, ⟨0x1001, Inputs.free⟩, [], .edge .B, by decide, by decide⟩

/-- OperationsAreRefusedExactlyAsListed: each reason, and each operation going on somewhere. -/
theorem witness_refused :
    refusalOf (exec .tick broken) = some .illegalConfiguration ∧
    refusalOf (exec .runDeb (expiring true true)) = some .debounceNotQueued ∧
    refusalOf (exec .runLp (settling true true)) = some .longPressNotQueued ∧
    ([0, 102, 223, 232, 255].all fun c => refusalOf (exec (.kbSet c) State.reset) == some (.notAKeyCode c)) = true ∧
    ([0, 102, 223, 232, 255].all fun c => refusalOf (exec (.kbClr c) State.reset) == some (.notAKeyCode c)) = true := by
  decide

theorem witness_goesOn :
    goesOn (exec .runDeb (settling true true)) = true ∧ goesOn (exec .runLp (expiring true true)) = true ∧
    ([Instr.reset, .edge .A, .edge .B, .tick, .reg, .kbSet 1, .kbSet 101, .kbSet 224, .kbSet 231, .kbClr 1, .kbClr 101,
      .kbClr 224, .kbClr 231, .kbApply 0, .kbApply 7, .kbSer, .kbSend, .batCompute 0 false, .batCompute 255 true,
      .batNotify 100, .batNotify 101].all fun i => goesOn (exec i State.reset)) = true := by decide

/-- IllegalConfigurationRefusesEveryOperation: two bounds of R10, a doubled key code, a code that does not fit. -/
theorem witness_illegalConfiguration :
    broken.cfg.legal = false ∧ { Config.initial with tLp := 65536 }.legal = false ∧
    { Config.initial with keyB := 224 }.legal = false ∧
    { Config.initial with codes := { Codes.default with typeNotCharging := 2 } }.legal = false ∧
    { Config.initial with chrKbBoot := 0 }.legal = false := by decide

/-- ResetRebuildsBootState, EdgeRestartsTheQuietPeriod, RegRegistersTheConsumer, KbApplyIsKeyAThenKeyB, KbSerEmitsTheReport,
KbSendHandsTheReportOver, BatComputeOverwritesTheStatus, BatNotifySendsLevelThenStatus, TickAdvancesTimeAndTimers:
a legal configuration, at its bounds too. -/
theorem witness_legal :
    State.reset.cfg.legal = true ∧ quick.cfg.legal = true ∧
    { Config.initial with tDeb := 65535, tLp := 65535, keyA := 1, keyB := 101 }.legal = true := by decide

/-- TickAdvancesTimeAndTimers, LongPressTimerTransitions (TICK): each clause of both timers. -/
theorem witness_tick :
    let idle := after (exec .tick { State.reset with now := 0xFFFFFFFF })
    let one := after (exec .tick { State.reset with deb := Timer.armedFor 1, lp := Timer.armedFor 1 })
    let two := after (exec .tick { State.reset with deb := Timer.armedFor 65535, lp := Timer.armedFor 2 })
    (idle.now = 0 ∧ idle.deb = Timer.off ∧ idle.lp = Timer.off) ∧ (one.deb = queued ∧ one.lp = queued) ∧
      (two.deb = Timer.armedFor 65534 ∧ two.lp = Timer.armedFor 1) := by decide

/-- QuietPeriodEndsAtTheTDebthTick: one tick short of the period, and at its end with other operations between. -/
theorem witness_quietPeriod :
    let short : List Presented := [(.tick, Inputs.free), (.kbSer, Inputs.free)]
    let full : List Presented := [(.tick, Inputs.free), (.reg, Inputs.free), (.tick, Inputs.free)]
    (after (runOps ((.edge .A, Inputs.free) :: short) quick)).deb = Timer.armedFor 1 ∧
    (after (runOps ((.edge .A, Inputs.free) :: full) quick)).deb = queued ∧
    goesOn (runOps ((.edge .A, Inputs.free) :: full) quick) = true ∧ quick.cfg.legal = true ∧
    full.all (fun op => op.1 ≠ .edge .A && op.1 ≠ .edge .B && op.1 ≠ .reset && op.1 ≠ .runDeb) = true := by decide

/-- QuietPeriodEndsAtTheTDebthTick, its second clause. -/
theorem witness_queuedByTick :
    ∃ (i : Instr) (s t : State), exec i s = .next t ∧ t.deb.state = .queued ∧ s.deb.state ≠ .queued :=
  ⟨.tick, { State.reset with deb := Timer.armedFor 1 }, _, next_after (by decide), by decide, by decide⟩

/-- CloseEdgesNeverSettle, CoalescedEdgesSettleOnce: gaps of 0 and of `T_DEB - 1` ticks. -/
theorem witness_closeEdges :
    let bs : List (Button × Nat) := [(.A, 1), (.B, 0), (.A, 1)]
    quick.cfg.legal = true ∧ bs ≠ [] ∧ (∀ bg ∈ bs, bg.2 < quick.cfg.tDeb) ∧
    (seen true false).levels = some { a := true, b := false } ∧
    (after (runOps (edges bs) quick)).deb.state = .armed ∧
    (after (runOps (edges bs ++ edges [(.B, 2)] ++ [(.runDeb, seen true false)]) quick)).lastSettled = 0b01 := by decide

/-- ExpiredTimerWaitsForItsCallback: each of its four cases. -/
theorem witness_expired :
    ([Instr.tick, .runDeb, .reset, .edge .B].all fun i => goesOn (exec i (settling true false))) = true ∧
      (settling true false).deb.state = .queued := by decide

/-- SettlementActsOnItsSample, SuppressionChangesEventsOnly, SettlementFirstDropsTheQueuedLongPress,
LongPressTimerTransitions (RUN_DEB): a legal configuration, both timers QUEUED, every sample. -/
theorem witness_settling :
    ([settling false false, settling true false, settling false true, settling true true].all fun s =>
      s.cfg.legal && (s.deb.state = .queued : Bool) && goesOn (exec .runDeb s) &&
        goesOn (exec .runLp { s with lp := queued }) && !goesOn (exec .runLp (after (exec .runDeb { s with lp := queued }))))
      = true := by decide

/-- SuppressionChangesEventsOnly: with a consumer and without, a mask that changed (0b01) and one that did not (0b00). -/
theorem witness_suppression :
    let on : Config := { Config.initial with suppressUnchanged := true }
    (after (exec .runDeb { settling true false with cfg := on })).trace = [.button 0b001] ∧
    (after (exec .runDeb { settling false false with cfg := on })).trace = [] ∧
    (after (exec .runDeb (settling false false))).trace = [.button 0b000] ∧
    (after (exec .runDeb { settling true false with consumerReg := false })).trace = [] := by decide

/-- MissingConsumerOnlyDiscardsTheEvent: both operations. -/
theorem witness_consumer :
    (∃ t, exec .runDeb { settling true true with consumerReg := true } = .next t) ∧
      (∃ t, exec .runLp { expiring true true with consumerReg := true } = .next t) :=
  ⟨⟨_, next_after (by decide)⟩, ⟨_, next_after (by decide)⟩⟩

/-- ButtonEventsComeFromCallbacksOnly: an event of each kind. -/
theorem witness_buttonEvents :
    (∃ t, exec .runDeb (settling true true) = .next t ∧ t.trace = [] ++ [Event.button 0b011]) ∧
      (∃ t, exec .runLp (expiring true true) = .next t ∧ t.trace = [] ++ [Event.button 0b111]) :=
  ⟨⟨_, next_after (by decide), by decide⟩, ⟨_, next_after (by decide), by decide⟩⟩

/-- LongPressTimerTransitions: RUN_DEB arming and not, RUN_LP, RESET, and operations that leave it. -/
theorem witness_longPressTransitions :
    (after (exec .runDeb (settling true true))).lp = Timer.armedFor 3000 ∧
    (after (exec .runDeb { settling false false with lp := Timer.armedFor 9 })).lp = Timer.off ∧
    (after (exec .runLp (expiring true true))).lp.state = .idle ∧ (after (exec .reset (expiring true true))).lp = Timer.off ∧
    ([Instr.edge .A, .reg, .kbSet 4, .kbClr 4, .kbApply 1, .kbSer, .kbSend, .batCompute 1 true, .batNotify 1].all fun i =>
      goesOn (exec i (expiring true true)) && (after (exec i (expiring true true))).lp == queued) = true := by decide

/-- LongPressDeadlineIsTLpTicksAfterArming: before the deadline and at it, an EDGE between. -/
theorem witness_deadline :
    let s : State := { settling true true with cfg := { Config.initial with tLp := 2 } }
    let ops : List Presented := [(.edge .A, Inputs.free), (.tick, Inputs.free)]
    s.cfg.legal = true ∧ (seen true true).levels = some { a := true, b := true } ∧
    ops.all (fun op => op.1 ≠ .runDeb && op.1 ≠ .reset && op.1 ≠ .runLp) = true ∧
    (after (runOps ((.runDeb, seen true true) :: ops) s)).lp = Timer.armedFor 1 ∧
    (after (runOps ((.runDeb, seen true true) :: ops ++ [(.tick, Inputs.free)]) s)).lp = queued := by decide

/-- ExpiryActsOnAFreshSample: with an event and without. -/
theorem witness_expiring :
    (expiring true true).cfg.legal = true ∧ (expiring true true).lp.state = .queued ∧
    (after (exec .runLp (expiring false true))).trace = [] ∧ (after (exec .runLp (expiring true true))).trace ≠ [] := by
  decide

/-- The short history of a long press: settle on both levels, then `T_LP` = 1 tick. -/
def held : List Presented := [(.reg, Inputs.free), (.runDeb, seen true true), (.tick, Inputs.free)]

/-- `quick` with the debounce timer QUEUED. -/
def quickQueued : State := { quick with deb := queued }

/-- LongPressEventIffItsHistory: its premises, its left side, and its right side. -/
theorem witness_history :
    ∃ u t v, quickQueued.cfg.legal = true ∧ quickQueued.lp.state = .idle ∧ runOps held quickQueued = .next u ∧
      exec .runLp (u.give (seen true true)) = .next t ∧ t.trace = u.trace ++ [.button 0b111] ∧
      runOps [(.reg, Inputs.free)] quickQueued = .next v ∧ (v.give (seen true true)).levels = { a := true, b := true } ∧
      u.consumerReg = true :=
  ⟨_, _, _, by decide, by decide, next_after (o := runOps held quickQueued) (by decide), next_after (by decide),
    by decide, next_after (by decide), by decide, by decide⟩

/-- OneArmingYieldsAtMostOneLongPress: a run that reaches its bound. -/
theorem witness_oneArming :
    ∃ t, quickQueued.lp.state = .idle ∧ (∀ op ∈ held ++ [(.runLp, seen true true)], op.1 = .runDeb → op.2.levels.isSome) ∧
      runOps (held ++ [(.runLp, seen true true)]) quickQueued = .next t ∧
      longPressesIn t.trace = longPressesIn quickQueued.trace + armingsIn (held ++ [(.runLp, seen true true)]) :=
  ⟨_, by decide, by decide, next_after (by decide), by decide⟩

/-- KbSetPressesAKey: each clause at the bounds of its codes: a modifier, a code present, no room, the first empty slot. -/
theorem witness_kbSet :
    (after (exec (.kbSet 224) State.reset)).kb.ctrl = 0x01 ∧ (after (exec (.kbSet 231) State.reset)).kb.ctrl = 0x80 ∧
    (∃ i : Fin 6, (holding #v[1, 0, 0, 0, 0, 101]).kb.keys[i] = 101) ∧
    ((∀ i : Fin 6, (holding #v[2, 3, 4, 5, 6, 7]).kb.keys[i] ≠ 1) ∧
      ∀ i : Fin 6, (holding #v[2, 3, 4, 5, 6, 7]).kb.keys[i] ≠ 0) ∧
    (after (exec (.kbSet 1) (holding #v[2, 3, 4, 5, 6, 0]))).kb.keys = #v[2, 3, 4, 5, 6, 1] ∧
    (after (exec (.kbSet 101) (holding #v[0, 3, 0, 5, 6, 0]))).kb.keys = #v[101, 3, 0, 5, 6, 0] := by decide

/-- KbClrReleasesAKey: each clause at the bounds of its codes; the first of two slots that hold the code. -/
theorem witness_kbClr :
    (after (exec (.kbClr 231) { State.reset with kb := { ctrl := 0xFF, keys := #v[0, 0, 0, 0, 0, 0] } })).kb.ctrl = 0x7F ∧
    (after (exec (.kbClr 1) State.reset)).results = [Result.plain .keyNotFound] ∧
    (after (exec (.kbClr 101) (holding #v[0, 0, 0, 0, 0, 101]))).kb.keys = #v[0, 0, 0, 0, 0, 0] ∧
    (after (exec (.kbClr 4) (holding #v[5, 4, 4, 0, 0, 0]))).kb.keys = #v[5, 0, 4, 0, 0, 0] := by decide

/-- SeventhKeyIsRefusedCapacity. -/
theorem witness_seventhKey :
    let s := holding #v[4, 5, 6, 7, 8, 9]
    (∀ i : Fin 6, isNormal s.kb.keys[i]) ∧ (∀ i j : Fin 6, s.kb.keys[i] = s.kb.keys[j] → i = j) ∧
      isNormal 10 = true ∧ ∀ i : Fin 6, s.kb.keys[i] ≠ 10 := by decide

/-- SecondApplyIsIdleUnlessKeyAWasTurnedAway. -/
theorem witness_secondApply :
    ∃ s t u : State, s.kb.SlotsSound ∧ exec (.kbApply 0b011) s = .next t ∧ exec (.kbApply 0b011) t = .next u ∧
      (s.kb.applyKey ((0b011 : ButtonMask).getLsbD 0) s.cfg.keyA).1 ≠ .capacityExhausted :=
  ⟨State.reset, _, _, by decide, next_after (by decide), next_after (by decide), by decide⟩

/-- SecondApplyNeverChangesTheEncoder: its premises are met by the state in which R160 makes it false
(notes/assumptions/8.md). -/
theorem witness_secondApplyChanges :
    ∃ s t u : State, s.kb.SlotsSound ∧ exec (.kbApply 0b001) s = .next t ∧ exec (.kbApply 0b001) t = .next u ∧
      t.kb.keys = #v[0, 1, 2, 3, 6, 7] ∧ u.kb.keys = #v[4, 1, 2, 3, 6, 7] :=
  ⟨keyed 4 5 (holding #v[5, 1, 2, 3, 6, 7]), _, _, by decide, next_after (by decide), next_after (by decide), by decide,
    by decide⟩

/-- SecondApplyIsIdleAndReturnsTheNamedCodes: key A set and key B turned away on the last empty slot (V-A7), and key A turned away with no
slot of key B's to free (V-A6): the states beside the one case that is left out. -/
theorem witness_repeat :
    let s := keyed 4 5 (holding #v[1, 2, 3, 6, 7, 0])
    let s' := keyed 4 5 (holding #v[1, 2, 3, 6, 7, 8])
    (s.kb.SlotsSound ∧ ¬ s.kb.FreesSlotTooLate s.cfg 0b011 ∧ goesOn (exec (.kbApply 0b011) s) = true) ∧
      (s'.kb.SlotsSound ∧ ¬ s'.kb.FreesSlotTooLate s'.cfg 0b001 ∧ goesOn (exec (.kbApply 0b001) s') = true) := by decide

/-- SecondApplyStoresTheKeyTurnedAway, with key B in the last slot and a mask whose bit 2 is set. -/
theorem witness_storedLate :
    let s := keyed 4 5 (holding #v[1, 2, 3, 6, 7, 5])
    s.cfg.legal = true ∧ s.kb.SlotsSound ∧ s.kb.FreesSlotTooLate s.cfg 0b101 ∧ s.kb.keys[(5 : Fin 6)] = s.cfg.keyB := by
  decide

/-- ReportRoundTripsTheMask. -/
theorem witness_roundTrip :
    State.reset.cfg.legal = true ∧ State.reset.kb = { ctrl := 0, keys := #v[0, 0, 0, 0, 0, 0] } := by decide

/-- KbSendHandsTheReportOver: each response. -/
theorem witness_responses :
    { State.reset with inputs := answers [.ok] }.response 0 = .ok ∧
    { State.reset with inputs := answers [.notConnected] }.response 0 = .notConnected ∧
    { State.reset with inputs := answers [.other 9] }.response 0 = .other 9 := by decide

/-- PowerStateFieldsHoldTheirCodes, DefaultCodesGiveFourStatusWords. -/
theorem witness_codes :
    Codes.default.legal = true ∧ State.reset.cfg.legal = true ∧ State.reset.cfg.codes = Codes.default ∧
    ([0, 9, 10, 19, 20, 255].map fun l : Byte => (computeStatus Codes.default l true).1)
      = [0x03A3, 0x03A3, 0x0323, 0x0323, 0x02A3, 0x02A3] := by decide

/-- BatNotifySendsLevelThenStatus: both sides of 100, and each clause of its result. -/
theorem witness_batNotify :
    (after (exec (.batNotify 101) State.reset)).results = [Result.plain .invalidBatteryLevel] ∧
    (after (exec (.batNotify 100) { State.reset with inputs := answers [.other 5, .notConnected] })).results
      = [{ code := .transportOther, detail := 0, payload := some 5 }] ∧
    (after (exec (.batNotify 100) { State.reset with inputs := answers [.notConnected, .other 4] })).results
      = [{ code := .transportOther, detail := 0, payload := some 4 }] ∧
    (after (exec (.batNotify 0) { State.reset with inputs := answers [.notConnected, .ok] })).results = [Result.ok] := by
  decide

/-- OperationKeepsToItsAccessColumn, EachStateIsMutatedByItsOwnerOnly: an operation that goes on, and changes of each kind. -/
theorem witness_owners :
    (∃ t, exec (.kbSet 4) State.reset = .next t ∧ t.kb ≠ State.reset.kb) ∧
    (∃ t, exec (.batCompute 5 true) State.reset = .next t ∧ t.bat ≠ State.reset.bat) ∧
    (∃ t, exec (.edge .A) State.reset = .next t ∧ t.deb ≠ State.reset.deb) ∧
    mayWrite (.edge .A) .keys = false :=
  ⟨⟨_, next_after (by decide), by decide⟩, ⟨_, next_after (by decide), by decide⟩, ⟨_, next_after (by decide), by decide⟩,
    by decide⟩

/-- OperationKeepsToItsAccessColumn, its second clause: two states that differ only in fields TICK does not read. -/
theorem witness_sameColumn :
    let s := settling true false
    let s' : State := { s with kb := { ctrl := 1, keys := #v[4, 0, 0, 0, 0, 0] }, lastSettled := 0b11 }
    goesOn (exec .tick s) = true ∧ s'.now = s.now ∧ s'.deb = s.deb ∧ s'.lp = s.lp ∧ s'.cfg = s.cfg ∧ s'.inputs = s.inputs ∧
      s'.presented = s.presented := by decide

/-- ExpiredTimerWaitsForItsCallback, its second clause: each of its four cases. -/
theorem witness_expiredLongPress :
    ([Instr.tick, .edge .A, .runLp, .reset, .runDeb].all fun i =>
      goesOn (exec i { expiring true true with deb := queued })) = true ∧ (expiring true true).lp.state = .queued := by
  decide

/-- StepKeepsEmittedEvents, StepEmitsLegalEventsOnly, StepKeepsTheInvariants: a step from a state that meets the
invariants, with an event already on a legal trace. -/
theorem witness_step :
    ∃ s t : State, s.Inv ∧ s.TraceLegal ∧ step s = .next t ∧ s.trace = [.button 0b011] ∧ t.trace.length = 2 :=
  ⟨{ State.reset.withFetchWord 16 0x8000 with trace := [.button 0b011] }, _, by decide,
    fun e he => by rw [List.mem_singleton.mp he]; decide, next_after (by decide), by decide, by decide⟩

/-- OperationReturnsOneListedResult: the payload of each call's response, unchanged. -/
theorem witness_payload :
    ((after (exec .kbSend { State.reset with inputs := answers [.other 9] })).results.map Result.payload = [some 9]) ∧
    ((after (exec (.batNotify 100) { State.reset with inputs := answers [.ok, .other 3] })).results.map Result.payload
      = [some 3]) := by decide

/-- OperationReturnsOneListedResult: each failing code. -/
theorem witness_results :
    ((after (exec (.kbSet 10) (holding #v[4, 5, 6, 7, 8, 9]))).results.map Result.code = [.capacityExhausted]) ∧
    ((after (exec (.kbClr 10) State.reset)).results.map Result.code = [.keyNotFound]) ∧
    ((after (exec (.batNotify 255) State.reset)).results.map Result.code = [.invalidBatteryLevel]) ∧
    ((after (exec .kbSend { State.reset with inputs := answers [.other 0] })).results.map Result.code
      = [.transportOther]) := by decide

end Sys2Proof.Tests
end

/-! SUPPORT. Proofs about the state (spec/10_state.md): every operation taken apart into when it goes on, what it writes,
what it emits and what it returns, and from that the access table of R38, the configuration of R44 and the codes of R26. -/

namespace Sys2Proof.Machine

/-! ## An operation taken apart: `exec_eq_next` -/

/-- The condition, beside a legal configuration, on which an operation goes on (R108, R134, R152, R229). -/
def accepts (i : Instr) (s : State) : Prop :=
  match i with
  | .runDeb => s.deb.state = .queued
  | .runLp => s.lp.state = .queued
  | .kbSet c => isKeyCode c
  | .kbClr c => isKeyCode c
  | _ => True

/-- The state with the fields an operation writes, before what it emits and returns is recorded. -/
def written (i : Instr) (s : State) : State :=
  match i with
  | .reset => s.boot
  | .edge b => { s with deb := Timer.armedFor s.cfg.tDeb, lastChangeTime := s.lastChangeTime.set b s.now }
  | .tick => { s with now := s.now + 1, deb := s.deb.tick, lp := s.lp.tick }
  | .runDeb =>
    { s.sample s.levels with
      deb := s.deb.taken
      lastSettled := rawMask s.levels
      lp := longPressAfter s (rawMask s.levels) }
  | .runLp => { s.sample s.levels with lp := s.lp.taken }
  | .reg => { s with consumerReg := true }
  | .kbSet c => { s with kb := (s.kb.press c).2 }
  | .kbClr c => { s with kb := (s.kb.release c).2 }
  | .kbApply m =>
    { s with kb := ((s.kb.applyKey (m.getLsbD 0) s.cfg.keyA).2.applyKey (m.getLsbD 1) s.cfg.keyB).2 }
  | .kbSer => s
  | .kbSend => s
  | .batCompute l ch => { s with bat := Battery.compute s.cfg.codes l ch }
  | .batNotify _ => s

/-- The events an operation puts on the trace, in order (R42). -/
def emitted (i : Instr) (s : State) : List Event :=
  match i with
  | .runDeb =>
    eventIf (settlementSends s (rawMask s.levels) && s.consumerReg) (.button (0#1 ++ rawMask s.levels))
  | .runLp => eventIf (s.levels.a && s.levels.b && s.consumerReg) (.button 0b111)
  | .kbSer => [.report s.kb.serialize]
  | .kbSend => [.notify (reportCharacteristic s.cfg s.protocolMode) s.kb.serialize (s.response 0)]
  | .batNotify l =>
    if 100 < l.toNat then []
    else
      [.notify s.cfg.chrLevel [l] (s.response 0),
        .notify s.cfg.chrStatus (statusBytes s.cfg.statusLayout s.bat.powerState s.bat.flags) (s.response 1)]
  | _ => []

/-- The result an operation returns (R220). -/
def returned (i : Instr) (s : State) : Result :=
  match i with
  | .kbSet c => Result.plain (s.kb.press c).1
  | .kbClr c => Result.plain (s.kb.release c).1
  | .kbApply m =>
    Result.ofApply (s.kb.applyKey (m.getLsbD 0) s.cfg.keyA).1
      ((s.kb.applyKey (m.getLsbD 0) s.cfg.keyA).2.applyKey (m.getLsbD 1) s.cfg.keyB).1
  | .kbSend => Result.ofResponse (s.response 0)
  | .batNotify l =>
    if 100 < l.toNat then Result.plain .invalidBatteryLevel
    else Result.ofResponses (s.response 0) (s.response 1)
  | _ => Result.ok

/-- The state with `es` added to the trace and `r` to the results. -/
def State.observe (s : State) (es : List Event) (r : Result) : State :=
  { s with trace := s.trace ++ es, results := s.results ++ [r] }

section Observe

variable (s : State) (es : List Event) (r : Result)

@[simp] theorem State.observe_now : (s.observe es r).now = s.now := rfl
@[simp] theorem State.observe_deb : (s.observe es r).deb = s.deb := rfl
@[simp] theorem State.observe_rawLevel : (s.observe es r).rawLevel = s.rawLevel := rfl
@[simp] theorem State.observe_lastChangeTime : (s.observe es r).lastChangeTime = s.lastChangeTime := rfl
@[simp] theorem State.observe_consumerReg : (s.observe es r).consumerReg = s.consumerReg := rfl
@[simp] theorem State.observe_lastSettled : (s.observe es r).lastSettled = s.lastSettled := rfl
@[simp] theorem State.observe_lp : (s.observe es r).lp = s.lp := rfl
@[simp] theorem State.observe_kb : (s.observe es r).kb = s.kb := rfl
@[simp] theorem State.observe_bat : (s.observe es r).bat = s.bat := rfl
@[simp] theorem State.observe_cfg : (s.observe es r).cfg = s.cfg := rfl
@[simp] theorem State.observe_commands : (s.observe es r).commands = s.commands := rfl
@[simp] theorem State.observe_inputs : (s.observe es r).inputs = s.inputs := rfl
@[simp] theorem State.observe_presented : (s.observe es r).presented = s.presented := rfl
@[simp] theorem State.observe_trace : (s.observe es r).trace = s.trace ++ es := rfl
@[simp] theorem State.observe_results : (s.observe es r).results = s.results ++ [r] := rfl

theorem State.observe_nil : s.observe [] r = s.record r := by
  simp [State.observe, State.record]

/-- BAT_NOTIFY's two calls: the first changes no input the second draws (R200). -/
theorem State.record_notify_notify (chr1 chr2 : Nat) (bytes1 bytes2 : List Byte) :
    ((s.notify 0 chr1 bytes1).notify 1 chr2 bytes2).record r =
      s.observe [.notify chr1 bytes1 (s.response 0), .notify chr2 bytes2 (s.response 1)] r := by
  simp [State.notify, State.emit, State.record, State.observe, State.response]

end Observe

/-- What an operation does, of every operation at once: when it goes on, and the state it leaves. -/
theorem exec_eq_next {i : Instr} {s t : State} :
    exec i s = .next t ↔ s.cfg.legal ∧ accepts i s ∧ (written i s).observe (emitted i s) (returned i s) = t := by
  cases i with
  | runDeb => exact execRunDeb_next
  | runLp => exact execRunLp_next
  | kbSer =>
    simp only [accepts, true_and]
    exact execKbSer_next
  | kbSend =>
    simp only [accepts, true_and]
    exact execKbSend_next
  | batNotify l =>
    rw [exec, execBatNotify_next, State.record_notify_notify]
    by_cases hl : 100 < l.toNat
    · simp [accepts, written, emitted, returned, State.observe_nil, hl, Nat.not_le.mpr hl]
    · simp [accepts, written, emitted, returned, hl, Nat.not_lt.mp hl]
  | _ =>
    simp only [exec, accepts, written, emitted, returned, State.observe_nil, true_and, execReset_next, execEdge_next,
      execTick_next, execReg_next, execKbSet_next, execKbClr_next, execKbApply_next, execBatCompute_next]

/-! ## What an operation leaves unchanged (R38) -/

/-- R38: a cell of the table without a `w`. -/
theorem written_frame {i : Instr} {f : Field} (s : State) (hf : mayWrite i f = false) : SameField f s (written i s) := by
  cases i with
  | reset => simp [mayWrite] at hf
  | kbSer | kbSend | batNotify => cases f <;> simp [SameField, written]
  | _ => cases f <;> simp [mayWrite] at hf <;> simp [SameField, written]

section Written

variable (i : Instr) (s : State)

@[simp] theorem written_cfg : (written i s).cfg = s.cfg := by cases i <;> rfl
@[simp] theorem written_commands : (written i s).commands = s.commands := by cases i <;> rfl
@[simp] theorem written_inputs : (written i s).inputs = s.inputs := by cases i <;> rfl
@[simp] theorem written_presented : (written i s).presented = s.presented := by cases i <;> rfl
@[simp] theorem written_trace : (written i s).trace = s.trace := by cases i <;> rfl
@[simp] theorem written_results : (written i s).results = s.results := by cases i <;> rfl

end Written

/-! ## The rows of R38's table and the observation -/

@[simp] theorem sameField_observe_left {f : Field} {s t : State} {es : List Event} {r : Result} :
    SameField f (s.observe es r) t ↔ SameField f s t := by
  cases f <;> rfl

@[simp] theorem sameField_observe_right {f : Field} {s t : State} {es : List Event} {r : Result} :
    SameField f s (t.observe es r) ↔ SameField f s t := by
  cases f <;> rfl

/-- The two rows of the keyboard are its whole state. -/
theorem kb_eq_of_sameField {s t : State} (hctrl : SameField .ctrlKeysState s t) (hkeys : SameField .keys s t) :
    t.kb = s.kb :=
  (Keyboard.mk.injEq ..).mpr ⟨hctrl, hkeys⟩

theorem sameField_keyboard {f : Field} {s t : State} (hkb : t.kb = s.kb) (hf : f = .ctrlKeysState ∨ f = .keys) :
    SameField f s t := by
  obtain rfl | rfl := hf
  · exact congrArg Keyboard.ctrl hkb
  · exact congrArg Keyboard.keys hkb

theorem sameField_battery {f : Field} {s t : State} (hbat : t.bat = s.bat)
    (hf : f = .battLevelCharging ∨ f = .powerStateFlags) : SameField f s t := by
  obtain rfl | rfl := hf <;> simp [SameField, hbat]

/-! ## What an operation depends on (R38) -/

/-- The states agree on what the operation reads: the fields with an `r` in its column, the configuration and the
inputs. -/
structure ReadsAlike (i : Instr) (s s' : State) : Prop where
  fields    : ∀ f : Field, mayRead i f = true → SameField f s s'
  cfg       : s'.cfg = s.cfg
  inputs    : s'.inputs = s.inputs
  presented : s'.presented = s.presented

namespace ReadsAlike

variable {i : Instr} {s s' : State}

theorem levels (h : ReadsAlike i s s') : s'.levels = s.levels := by
  simp only [State.levels, h.inputs, h.presented]

theorem protocolMode (h : ReadsAlike i s s') : s'.protocolMode = s.protocolMode := by
  simp only [State.protocolMode, h.inputs, h.presented]

theorem response (h : ReadsAlike i s s') (k : Nat) : s'.response k = s.response k := by
  simp only [State.response, h.inputs, h.presented]

theorem kb (h : ReadsAlike i s s') (hctrl : mayRead i .ctrlKeysState = true) (hkeys : mayRead i .keys = true) :
    s'.kb = s.kb :=
  kb_eq_of_sameField (h.fields _ hctrl) (h.fields _ hkeys)

theorem accepts_iff (h : ReadsAlike i s s') : accepts i s' ↔ accepts i s := by
  cases i with
  | runDeb =>
    have hdeb : s'.deb = s.deb := h.fields .debTimer rfl
    simp only [accepts, hdeb]
  | runLp =>
    have hlp : s'.lp = s.lp := h.fields .lpTimer rfl
    simp only [accepts, hlp]
  | _ => rfl

theorem emitted_eq (h : ReadsAlike i s s') : emitted i s' = emitted i s := by
  cases i with
  | runDeb =>
    have hreg : s'.consumerReg = s.consumerReg := h.fields .consumerReg rfl
    have hlast : s'.lastSettled = s.lastSettled := h.fields .lastSettled rfl
    simp only [emitted, settlementSends, h.levels, h.cfg, hreg, hlast]
  | runLp =>
    have hreg : s'.consumerReg = s.consumerReg := h.fields .consumerReg rfl
    simp only [emitted, h.levels, hreg]
  | kbSer => simp only [emitted, h.kb rfl rfl]
  | kbSend => simp only [emitted, h.kb rfl rfl, h.cfg, h.protocolMode, h.response]
  | batNotify l =>
    obtain ⟨hps, hfl⟩ := h.fields .powerStateFlags rfl
    simp only [emitted, h.cfg, h.response, hps, hfl]
  | _ => rfl

theorem returned_eq (h : ReadsAlike i s s') : returned i s' = returned i s := by
  cases i with
  | kbSet c | kbClr c => simp only [returned, h.kb rfl rfl]
  | kbApply m => simp only [returned, h.kb rfl rfl, h.cfg]
  | kbSend | batNotify l => simp only [returned, h.response]
  | _ => rfl

/-- R38: the values a column writes come from the values it reads (EDGE's `last_change_time` apart, of which it writes one
button's). -/
theorem written_sameField (h : ReadsAlike i s s') {f : Field} (hf : mayWrite i f = true)
    (hlct : f = .lastChangeTime → i = .reset) : SameField f (written i s) (written i s') := by
  cases i with
  | reset => cases f <;> simp [SameField, written, h.cfg]
  | edge b =>
    obtain rfl | rfl : f = .debTimer ∨ f = .lastChangeTime := by simpa [mayWrite] using hf
    · simp [SameField, written, h.cfg]
    · cases hlct rfl
  | tick =>
    obtain (rfl | rfl) | rfl : (f = .now ∨ f = .debTimer) ∨ f = .lpTimer := by simpa [mayWrite] using hf
    · exact congrArg (· + 1) (h.fields .now rfl)
    · exact congrArg Timer.tick (h.fields .debTimer rfl)
    · exact congrArg Timer.tick (h.fields .lpTimer rfl)
  | runDeb =>
    obtain ((rfl | rfl) | rfl) | rfl : ((f = .debTimer ∨ f = .rawLevel) ∨ f = .lastSettled) ∨ f = .lpTimer := by
      simpa [mayWrite] using hf
    · exact congrArg Timer.taken (h.fields .debTimer rfl)
    · exact h.levels
    · exact congrArg rawMask h.levels
    · simp [SameField, written, longPressAfter, h.levels, h.cfg]
  | runLp =>
    obtain rfl | rfl : f = .rawLevel ∨ f = .lpTimer := by simpa [mayWrite] using hf
    · exact h.levels
    · exact congrArg Timer.taken (h.fields .lpTimer rfl)
  | reg =>
    obtain rfl : f = .consumerReg := by simpa [mayWrite] using hf
    rfl
  | kbSet c | kbClr c =>
    exact sameField_keyboard (by simp only [written, h.kb rfl rfl]) (by simpa [mayWrite] using hf)
  | kbApply m =>
    exact sameField_keyboard (by simp only [written, h.kb rfl rfl, h.cfg]) (by simpa [mayWrite] using hf)
  | batCompute l ch => exact sameField_battery (by simp only [written, h.cfg]) (by simpa [mayWrite] using hf)
  | kbSer | kbSend | batNotify l => cases hf

theorem written_edge_time {b : Button} (h : ReadsAlike (.edge b) s s') :
    (written (.edge b) s').lastChangeTime.get b = (written (.edge b) s).lastChangeTime.get b := by
  have hnow : s'.now = s.now := h.fields .now rfl
  cases b <;> exact hnow

end ReadsAlike

/-- Settles O46: the state an operation leaves is taken apart by `exec_eq_next`, and each part read off R38's table. -/
theorem operationKeepsToItsAccessColumn : Obligations.OperationKeepsToItsAccessColumn := by
  refine ⟨fun i s t ht => ?_, fun i s s' t ht hfields hcfg hinputs hpresented => ?_⟩
  · obtain ⟨-, -, rfl⟩ := exec_eq_next.mp ht
    exact ⟨fun f hf => by simpa using written_frame s hf, by simp, by simp, by simp, by simp⟩
  · obtain ⟨hlegal, hacc, rfl⟩ := exec_eq_next.mp ht
    have h : ReadsAlike i s s' := ⟨hfields, hcfg, hinputs, hpresented⟩
    refine ⟨(written i s').observe (emitted i s) (returned i s), emitted i s, returned i s,
      exec_eq_next.mpr ⟨by rwa [hcfg], h.accepts_iff.mpr hacc, by rw [h.emitted_eq, h.returned_eq]⟩,
      fun f hf hlct => by simpa using h.written_sameField hf hlct, ?_, by simp, by simp, by simp, by simp⟩
    rintro b rfl
    simpa using h.written_edge_time

/-! ## The configuration (R10, R44) -/

/-- R190: the codes of R10 fit their sub-fields. -/
theorem codes_legal_iff {k : Codes} : k.legal = true ↔
    k.wiredConnected ≤ 3 ∧ k.wiredUnknown ≤ 3 ∧ k.wirelessNever ≤ 3 ∧ k.stateCharging ≤ 3 ∧
      k.stateActiveDischarge ≤ 3 ∧ k.levelGood ≤ 3 ∧ k.levelLow ≤ 3 ∧ k.levelCritical ≤ 3 ∧
      k.levelNotCharging ≤ 3 ∧ k.typeConstantCurrent ≤ 1 ∧ k.typeNotCharging ≤ 1 := by
  simp only [Codes.legal, Bool.and_eq_true, decide_eq_true_eq, and_assoc]

/-- R10: the four identifiers are distinct. -/
theorem identifiers_nodup_iff {a b c d : Nat} :
    [a, b, c, d].Nodup ↔ a ≠ b ∧ a ≠ c ∧ a ≠ d ∧ b ≠ c ∧ b ≠ d ∧ c ≠ d := by
  simp [and_assoc]

theorem exec_of_illegal {i : Instr} {s : State} (h : s.cfg.legal = false) :
    exec i s = .refused .illegalConfiguration := by
  cases i <;> exact guarded_of_illegal (by simp [h]) _

theorem exec_keeps_cfg {i : Instr} {s t : State} (ht : exec i s = .next t) : t.cfg = s.cfg := by
  obtain ⟨-, -, rfl⟩ := exec_eq_next.mp ht
  simp

/-- Settles O10: the parameters one by one, then the guard every operation starts with. -/
theorem illegalConfigurationRefusesEveryOperation : Obligations.IllegalConfigurationRefusesEveryOperation :=
  ⟨fun c => by simp only [config_legal_iff, isKeyCode_iff, codes_legal_iff, identifiers_nodup_iff],
    fun _ _ => exec_of_illegal, fun _ _ _ => exec_keeps_cfg⟩

/-! ## The codes of the timer states (R26) -/

@[simp] theorem TimerState.ofBits_encode (t : TimerState) : TimerState.ofBits t.encode = .ok t := by
  cases t <;> rfl

/-- Settles O50: every state's code reads back, and the four 2-bit values are read one by one. -/
theorem timerStatesHaveTwoBitCodes : Obligations.TimerStatesHaveTwoBitCodes :=
  ⟨TimerState.ofBits_encode, rfl, rfl, rfl, rfl⟩

end Sys2Proof.Machine

/-! SUPPORT. Proofs about the output trace (spec/20_memory.md): a step taken apart into the command it is presented and the
operation it performs, and from that the trace of R65. -/

namespace Sys2Proof.Machine

/-! ## A step taken apart: `step_eq_next` -/

section Step

variable {s t : State} {c : Command} {rest : List Command}

theorem step_of_nil (h : s.commands = []) : step s = .fault .endOfRun := by
  simp only [step, fetch_nil h]

theorem step_of_decode_ok {i : Instr} (h : s.commands = c :: rest) (hi : decode c.word = .ok i) :
    step s = exec i (s.present c rest) := by
  simp only [step, fetch_cons h, hi]

theorem step_of_decode_error {e : DecodeError} (h : s.commands = c :: rest) (he : decode c.word = .error e) :
    step s = .refused (.illegalCommand c.word e) := by
  simp only [step, fetch_cons h, he]

/-- R70, R74: a step goes on exactly when a command is presented, its word decodes, and its operation goes on. -/
theorem step_eq_next : step s = .next t ↔
    ∃ c rest i, s.commands = c :: rest ∧ decode c.word = .ok i ∧ exec i (s.present c rest) = .next t := by
  constructor
  · intro hstep
    cases hcommands : s.commands with
    | nil =>
      rw [step_of_nil hcommands] at hstep
      cases hstep
    | cons c rest =>
      cases hdecode : decode c.word with
      | error e =>
        rw [step_of_decode_error hcommands hdecode] at hstep
        cases hstep
      | ok i =>
        rw [step_of_decode_ok hcommands hdecode] at hstep
        exact ⟨c, rest, i, rfl, hdecode, hstep⟩
  · rintro ⟨c, rest, i, hcommands, hdecode, hexec⟩
    rwa [step_of_decode_ok hcommands hdecode]

end Step

/-! ## The output trace only grows (R42, R65) -/

theorem exec_trace {i : Instr} {s t : State} (h : exec i s = .next t) : t.trace = s.trace ++ emitted i s := by
  obtain ⟨-, -, rfl⟩ := exec_eq_next.mp h
  simp

/-- Settles O48: the step's operation appends its events to the trace, which presenting the command leaves alone. -/
theorem stepKeepsEmittedEvents : Obligations.StepKeepsEmittedEvents := by
  intro s t hstep
  obtain ⟨c, rest, i, -, -, hexec⟩ := step_eq_next.mp hstep
  exact ⟨emitted i (s.present c rest), (exec_trace hexec).symm⟩

end Sys2Proof.Machine

/-! SUPPORT. Proofs about command words (spec/30_encoding.md): the words that decode to an instruction and the words that
decode to none, and from these the opcode map of R73, the illegal words of R75, the operands of R72 and the bytes of
R77. -/

namespace Sys2Proof

open Sys2Proof.Machine

/-! ## The fields of a word as numbers (R71, R72) -/

theorem toNat_field (w : Word) (start len : Nat) :
    (w.extractLsb' start len).toNat = w.toNat / 2 ^ start % 2 ^ len := by
  rw [BitVec.extractLsb'_toNat, Nat.shiftRight_eq_div_pow]

theorem toNat_bit (w : Word) (n : Nat) : (w.getLsbD n).toNat = w.toNat / 2 ^ n % 2 :=
  Nat.toNat_testBit w.toNat n

theorem toNat_encode_edge_buttonOfBit (b : Bool) : (encode (.edge (buttonOfBit b))).toNat = 0x1000 + b.toNat := by
  cases b <;> rfl

/-! ## The decoder taken apart: `decode_eq_ok` and `decode_eq_error` -/

theorem decode_encode (i : Instr) : decode (encode i) = .ok i := by
  cases i with
  | edge b => cases b <;> rfl
  | kbSet c | kbClr c => revert c; decide
  | kbApply m => revert m; decide
  | batCompute l ch => revert l; cases ch <;> decide
  | batNotify l => revert l; decide
  | _ => rfl

theorem encode_of_decode {w : Word} {i : Instr} (h : decode w = .ok i) : encode i = w := by
  apply BitVec.eq_of_toNat_eq
  unfold decode at h
  split at h <;> rename_i hclass <;> rw [classOf_eq] at hclass
  case h_4 | h_9 =>
    obtain ⟨hsub, rfl⟩ | ⟨hsub, rfl⟩ := decodeSub_eq_ok.mp h <;> simp only [encode_toNat] <;> omega
  case h_12 => cases h
  all_goals
    obtain ⟨hzero, rfl⟩ := requireZero_eq_ok.mp h
    rw [toNat_field] at hzero
  case h_2 =>
    rw [toNat_encode_edge_buttonOfBit, toNat_bit]
    omega
  all_goals
    simp only [encode_toNat, toNat_field, toNat_bit]
    omega

/-- R73, R78: the words that decode to an instruction: its own word, and no other. -/
theorem decode_eq_ok {w : Word} {i : Instr} : decode w = .ok i ↔ encode i = w :=
  ⟨encode_of_decode, fun h => h ▸ decode_encode i⟩

/-- The class and the low twelve bits of a word R75 lists. -/
def IllegalFields (cls low : Nat) : Prop :=
  11 ≤ cls ∨ ((cls = 0 ∨ cls = 2 ∨ cls = 4) ∧ low ≠ 0) ∨ (cls = 1 ∧ low / 2 ≠ 0) ∨
    ((cls = 3 ∨ cls = 8) ∧ 2 ≤ low) ∨ ((cls = 5 ∨ cls = 6 ∨ cls = 10) ∧ low / 256 ≠ 0) ∨
    (cls = 7 ∧ low / 8 ≠ 0) ∨ (cls = 9 ∧ low / 512 ≠ 0)

theorem exists_requireZero_eq_error {n : Nat} {bits : BitVec n} {i : Instr} :
    (∃ e, requireZero bits i = .error e) ↔ bits.toNat ≠ 0 := by
  simp only [requireZero_eq_error, exists_and_left, exists_eq, and_true]

theorem exists_decodeSub_eq_error {w : Word} {i j : Instr} :
    (∃ e, decodeSub w i j = .error e) ↔ 2 ≤ w.toNat % 4096 := by
  simp only [decodeSub_eq_error, exists_and_left, exists_eq, and_true]

/-- R75: the words that decode to no instruction. -/
theorem decode_eq_error {w : Word} :
    (∃ e, decode w = .error e) ↔ IllegalFields (w.toNat / 4096) (w.toNat % 4096) := by
  unfold decode IllegalFields
  split <;> rename_i hclass
  case h_4 | h_9 =>
    rw [exists_decodeSub_eq_error, ← classOf_eq, hclass]
    omega
  case h_12 =>
    rw [← classOf_eq]
    simp only [imp_false] at *
    exact iff_of_true ⟨_, rfl⟩ (.inl (by omega))
  all_goals
    rw [exists_requireZero_eq_error, toNat_field, ← classOf_eq, hclass]
    omega

/-! ## The opcode map (R73, R74) -/

/-- R73: the word of every instruction matches the row of its mnemonic. -/
theorem encode_matches_row (i : Instr) : Laws.OpcodeMap.Statement i := by
  cases i with
  | reset => exact Laws.OpcodeMap.reset
  | edge b => exact Laws.OpcodeMap.edge b
  | tick => exact Laws.OpcodeMap.tick
  | runDeb => exact Laws.OpcodeMap.runDeb
  | runLp => exact Laws.OpcodeMap.runLp
  | reg => exact Laws.OpcodeMap.reg
  | kbSet c => exact Laws.OpcodeMap.kbSet c
  | kbClr c => exact Laws.OpcodeMap.kbClr c
  | kbApply m => exact Laws.OpcodeMap.kbApply m
  | kbSer => exact Laws.OpcodeMap.kbSer
  | kbSend => exact Laws.OpcodeMap.kbSend
  | batCompute l ch => exact Laws.OpcodeMap.batCompute l ch
  | batNotify l => exact Laws.OpcodeMap.batNotify l

/-- The patterns of two rows differ on a bit both masks keep. -/
theorem opcodeRows_disjoint : ∀ r ∈ opcodeRows, ∀ r' ∈ opcodeRows,
    r.pattern &&& r'.mask = r'.pattern &&& r.mask → r = r' := by
  decide

/-- R73: no word matches two rows. -/
theorem row_eq_of_matches {r r' : OpcodeRow} {w : Word} (hr : r ∈ opcodeRows) (hr' : r' ∈ opcodeRows)
    (h : r.Matches w) (h' : r'.Matches w) : r = r' := by
  refine opcodeRows_disjoint r hr r' hr' ?_
  rw [← show w &&& r.mask = r.pattern from h, ← show w &&& r'.mask = r'.pattern from h']
  ac_rfl

/-- A mask of all but the low `k` bits leaves those bits free. -/
theorem toNat_of_and_mask {w p : Word} (k : Nat) (h : w &&& BitVec.allOnes 16 <<< k = p) :
    w.toNat = p.toNat + w.toNat % 2 ^ k := by
  have hle : w.toNat / 2 ^ k * 2 ^ k < 2 ^ 16 := (Nat.div_mul_le_self ..).trans_lt w.isLt
  rw [← h, ← BitVec.shiftLeft_ushiftRight, BitVec.toNat_shiftLeft, BitVec.toNat_ushiftRight,
    Nat.shiftRight_eq_div_pow, Nat.shiftLeft_eq, Nat.mod_eq_of_lt hle, Nat.div_add_mod']

theorem encode_eq_of_and_mask {w p : Word} {i : Instr} (k : Nat) (h : w &&& BitVec.allOnes 16 <<< k = p)
    (hi : (encode i).toNat = p.toNat + w.toNat % 2 ^ k) : encode i = w :=
  BitVec.eq_of_toNat_eq (hi.trans (toNat_of_and_mask k h).symm)

/-- R74: a word that matches a row is the word of an instruction of that row, whose operand is the bits the mask leaves
free. -/
theorem exists_encode_of_matches {r : OpcodeRow} {w : Word} (hr : r ∈ opcodeRows) (h : r.Matches w) :
    ∃ i : Instr, encode i = w ∧ i.mnemonic = r.mnemonic := by
  simp only [opcodeRows, List.mem_cons, List.not_mem_nil, or_false] at hr
  obtain rfl | rfl | rfl | rfl | rfl | rfl | rfl | rfl | rfl | rfl | rfl | rfl | rfl := hr
  · exact ⟨.reset, h.symm.trans BitVec.and_allOnes, rfl⟩
  · exact ⟨.edge (buttonOfBit (w.getLsbD 0)),
      encode_eq_of_and_mask 1 h (by simp only [toNat_encode_edge_buttonOfBit, toNat_bit, BitVec.reduceToNat]; omega), rfl⟩
  · exact ⟨.tick, h.symm.trans BitVec.and_allOnes, rfl⟩
  · exact ⟨.runDeb, h.symm.trans BitVec.and_allOnes, rfl⟩
  · exact ⟨.runLp, h.symm.trans BitVec.and_allOnes, rfl⟩
  · exact ⟨.reg, h.symm.trans BitVec.and_allOnes, rfl⟩
  · exact ⟨.kbSet (w.extractLsb' 0 8), encode_eq_of_and_mask 8 h (by simp [encode_toNat]), rfl⟩
  · exact ⟨.kbClr (w.extractLsb' 0 8), encode_eq_of_and_mask 8 h (by simp [encode_toNat]), rfl⟩
  · exact ⟨.kbApply (w.extractLsb' 0 3), encode_eq_of_and_mask 3 h (by simp [encode_toNat]), rfl⟩
  · exact ⟨.kbSer, h.symm.trans BitVec.and_allOnes, rfl⟩
  · exact ⟨.kbSend, h.symm.trans BitVec.and_allOnes, rfl⟩
  · exact ⟨.batCompute (w.extractLsb' 0 8) (w.getLsbD 8),
      encode_eq_of_and_mask 9 h (by simp only [encode_toNat, toNat_field, toNat_bit, BitVec.reduceToNat]; omega), rfl⟩
  · exact ⟨.batNotify (w.extractLsb' 0 8), encode_eq_of_and_mask 8 h (by simp [encode_toNat]), rfl⟩

/-- Settles O3: the word of an instruction matches the row of its mnemonic, a word that matches a row is the word of one
of its instructions, and no two rows share a word. -/
theorem wordDecodesToItsOneOpcodeRow : Obligations.WordDecodesToItsOneOpcodeRow := by
  refine ⟨fun w i h => ?_, fun w r hr h => ?_, fun w r hr r' hr' => row_eq_of_matches hr hr'⟩
  · obtain ⟨r, hr, hmnemonic, hmatch⟩ := encode_matches_row i
    rw [encode_of_decode h] at hmatch
    exact ⟨r, hr, hmatch, hmnemonic⟩
  · obtain ⟨i, hi, hmnemonic⟩ := exists_encode_of_matches hr h
    exact ⟨i, decode_eq_ok.mpr hi, hmnemonic⟩

/-! ## The illegal words (R75) -/

/-- Settles O4: R75's list is where the decoder fails, class by class, and the step passes its failure on. -/
theorem illegalWordsAreTheListedOnes : Obligations.IllegalWordsAreTheListedOnes :=
  ⟨fun _ => decode_eq_error, fun _ _ _ _ => step_of_decode_error⟩

/-! ## The operands (R72) -/

/-- Settles O5: a word that decodes is the word of its instruction, which holds the operand in its bits. -/
theorem operandsAreTheirBits : Obligations.OperandsAreTheirBits := by
  intro w
  refine ⟨fun b h => ?edge, fun c h => ?kbSet, fun c h => ?kbClr, fun m h => ?kbApply, fun l ch h => ?batCompute,
    fun l h => ?batNotify⟩ <;> obtain rfl := encode_of_decode h
  case edge => cases b <;> decide
  case batCompute =>
    have hch := ch.toNat_le
    simp only [encode_toNat]
    omega
  all_goals
    simp only [encode_toNat]
    omega

/-! ## The byte form (R77) -/

/-- R77: two bytes, the low one first, join to the word they make up. -/
theorem append_eq_encode {i : Instr} {lo hi : Byte} (h : (encode i).toNat = lo.toNat + 256 * hi.toNat) :
    hi ++ lo = encode i := by
  apply BitVec.eq_of_toNat_eq
  rw [h, BitVec.toNat_append, ← Nat.shiftLeft_add_eq_or_of_lt lo.isLt, Nat.shiftLeft_eq]
  omega

/-- Settles O7: the two bytes join to the instruction's word, which decodes to it. -/
theorem storedCommandIsLowByteFirst : Obligations.StoredCommandIsLowByteFirst := by
  intro i lo hi rest h
  rw [decodeBytes, append_eq_encode h, decode_encode]
  rfl

end Sys2Proof

/-! SUPPORT. Proofs about the debounce engine (spec/40_debounce.md): the effects of EDGE, TICK and REG, how long an expired
timer waits, and what SUPPRESS_UNCHANGED selects. -/

namespace Sys2Proof.Machine

/-! ## The operations that are never refused (R100, R104, R116) -/

/-- Settles O14: from any timer state EDGE has the one effect of `execEdge_next`. -/
theorem edgeRestartsTheQuietPeriod : Obligations.EdgeRestartsTheQuietPeriod :=
  ⟨decode_encode (.edge .A), decode_encode (.edge .B), fun _ hlegal =>
    ⟨execEdge_next.mpr ⟨hlegal, rfl⟩, execEdge_next.mpr ⟨hlegal, rfl⟩⟩⟩

/-- Settles O24: registered or not, REG has the one effect of `execReg_next`. -/
theorem regRegistersTheConsumer : Obligations.RegRegistersTheConsumer :=
  ⟨decode_encode .reg, fun _ hlegal => execReg_next.mpr ⟨hlegal, rfl⟩⟩

section Tick

variable {t : Timer}

/-- R104: the last tick of an armed timer, its count read as a number. -/
theorem Timer.tick_of_toNat_eq_one (harmed : t.state = .armed) (hcnt : t.cnt.toNat = 1) :
    t.tick = { state := .queued, cnt := 0 } :=
  Timer.tick_expires harmed (BitVec.eq_of_toNat_eq hcnt)

/-- R104: every earlier tick, which does not wrap. -/
theorem Timer.tick_of_one_lt_toNat (harmed : t.state = .armed) (hcnt : 1 < t.cnt.toNat) :
    t.tick.state = .armed ∧ t.tick.cnt.toNat = t.cnt.toNat - 1 := by
  have hne : t.cnt ≠ 1 := by bv_omega
  rw [Timer.tick_counts harmed hne]
  exact ⟨rfl, by bv_omega⟩

theorem Timer.tick_of_queued (h : t.state = .queued) : t.tick = t :=
  Timer.tick_of_not_armed (by simp [h])

end Tick

/-- R104, R23: one more, modulo 2^32. -/
theorem time_add_one (now : Time) : now + 1 = BitVec.ofNat 32 ((now.toNat + 1) % 2 ^ 32) :=
  BitVec.eq_of_toNat_eq (by simp)

/-- Settles O15: TICK's one effect, with each timer's part of it read case by case. -/
theorem tickAdvancesTimeAndTimers : Obligations.TickAdvancesTimeAndTimers := by
  refine ⟨decode_encode .tick, fun s hlegal => ⟨s.deb.tick, s.lp.tick, ?_,
    Timer.tick_of_not_armed, Timer.tick_of_toNat_eq_one, Timer.tick_of_one_lt_toNat,
    Timer.tick_of_not_armed, Timer.tick_of_toNat_eq_one, Timer.tick_of_one_lt_toNat⟩⟩
  rw [← time_add_one]
  exact execTick_next.mpr ⟨hlegal, rfl⟩

/-! ## An expired timer (R106) -/

section Fields

variable {i : Instr} {s t : State}

/-- R38: a field without a `w` in the operation's column is kept. -/
theorem exec_sameField {f : Field} (h : exec i s = .next t) (hf : mayWrite i f = false) : SameField f s t := by
  obtain ⟨-, -, rfl⟩ := exec_eq_next.mp h
  exact sameField_observe_right.mpr (written_frame s hf)

theorem exec_deb (h : exec i s = .next t) : t.deb = (written i s).deb := by
  obtain ⟨-, -, rfl⟩ := exec_eq_next.mp h
  rfl

theorem exec_lp (h : exec i s = .next t) : t.lp = (written i s).lp := by
  obtain ⟨-, -, rfl⟩ := exec_eq_next.mp h
  rfl

/-- R108, R130: a settlement cancels the long-press timer or arms it afresh. -/
theorem longPressAfter_cases (s : State) (raw : RawMask) :
    (raw = 0b11 ∧ longPressAfter s raw = Timer.armedFor s.cfg.tLp) ∨
      (raw ≠ 0b11 ∧ longPressAfter s raw = Timer.off) := by
  by_cases h : raw = 0b11
  · exact .inl ⟨h, if_pos h⟩
  · exact .inr ⟨h, if_neg h⟩

end Fields

/-- Settles O19: an operation without a `w` for the timer keeps it, and those with one are gone through one by one; a TICK
leaves a QUEUED timer. -/
theorem expiredTimerWaitsForItsCallback : Obligations.ExpiredTimerWaitsForItsCallback := by
  refine ⟨fun i s t h hq => ?deb, fun i s t h hq => ?lp⟩
  case deb =>
    cases i with
    | reset => exact .inr (.inr (.inl ⟨rfl, congrArg Timer.state (exec_deb h)⟩))
    | edge b => exact .inr (.inr (.inr ⟨b, rfl, exec_deb h⟩))
    | tick => exact .inl ⟨(exec_deb h).trans (Timer.tick_of_queued hq), by simp⟩
    | runDeb => exact .inr (.inl ⟨rfl, congrArg Timer.state (exec_deb h)⟩)
    | _ => exact .inl ⟨exec_sameField (f := .debTimer) h rfl, by simp⟩
  case lp =>
    cases i with
    | reset => exact .inr (.inr (.inl ⟨rfl, congrArg Timer.state (exec_lp h)⟩))
    | tick => exact .inl ⟨(exec_lp h).trans (Timer.tick_of_queued hq), by simp⟩
    | runDeb =>
      refine .inr (.inr (.inr ⟨rfl, ?_⟩))
      obtain ⟨-, e⟩ | ⟨-, e⟩ := longPressAfter_cases s (rawMask s.levels)
      · exact .inr ((exec_lp h).trans e)
      · exact .inl (congrArg Timer.state ((exec_lp h).trans e))
    | runLp => exact .inr (.inl ⟨rfl, congrArg Timer.state (exec_lp h)⟩)
    | _ => exact .inl ⟨exec_sameField (f := .lpTimer) h rfl, by simp⟩

/-! ## The two readings of a settlement (R110) -/

/-- The state under the given value of `SUPPRESS_UNCHANGED`. -/
def State.suppressing (s : State) (b : Bool) : State :=
  { s with cfg := { s.cfg with suppressUnchanged := b } }

section Suppressing

variable {s : State}

/-- The settlement of a QUEUED timer under either value, both of them legal (R10). -/
theorem exec_runDeb_suppressing (b : Bool) (hlegal : s.cfg.legal) (hq : s.deb.state = .queued) :
    exec .runDeb (s.suppressing b) = .next ((settle (s.suppressing b) s.levels).record Result.ok) :=
  execRunDeb_next.mpr ⟨hlegal, hq, rfl⟩

theorem settle_trace_of_no_consumer (lv : PerButton Bool) (hreg : s.consumerReg = false) :
    (settle s lv).trace = s.trace := by
  rw [settle_trace, hreg, Bool.and_false]
  exact List.append_nil _

theorem settle_trace_of_consumer (lv : PerButton Bool) (hreg : s.consumerReg = true) :
    (settle s lv).trace = s.trace ++ eventIf (settlementSends s (rawMask lv)) (.button (0#1 ++ rawMask lv)) := by
  rw [settle_trace, hreg, Bool.and_true]

/-- R110: under true a mask equal to the last settled one is not sent. -/
theorem eventIf_settlementSends_suppressing_true (raw : RawMask) (e : Event) :
    eventIf (settlementSends (s.suppressing true) raw) e = if raw = s.lastSettled then [] else [e] := by
  by_cases hraw : raw = s.lastSettled <;> simp [eventIf, settlementSends, State.suppressing, hraw]

end Suppressing

/-- Settles O21: the two settlements write the same fields, and their traces differ in the condition of the event alone. -/
theorem suppressionChangesEventsOnly : Obligations.SuppressionChangesEventsOnly := by
  intro s hlegal hq
  refine ⟨_, _, exec_runDeb_suppressing false hlegal hq, exec_runDeb_suppressing true hlegal hq, rfl, rfl,
    fun hboth => if_pos hboth, fun hnot => if_neg hnot, fun hreg => ⟨?_, ?_⟩, fun hreg => ⟨?_, ?_⟩⟩
  · exact settle_trace_of_consumer s.levels hreg
  · calc (settle (s.suppressing true) s.levels).trace
      _ = s.trace ++ eventIf (settlementSends (s.suppressing true) (rawMask s.levels))
            (.button (0#1 ++ rawMask s.levels)) := settle_trace_of_consumer s.levels hreg
      _ = s.trace ++ if rawMask s.levels = s.lastSettled then [] else [.button (0#1 ++ rawMask s.levels)] := by
        rw [eventIf_settlementSends_suppressing_true]
  · exact settle_trace_of_no_consumer s.levels hreg
  · exact settle_trace_of_no_consumer s.levels hreg

end Sys2Proof.Machine

/-! SUPPORT. Proofs about the keyboard encoder (spec/42_keyboard.md): what `set` and `clear` do in each case, and from
these the effects of KB_SET, KB_CLR, KB_APPLY, KB_SER and KB_SEND. -/

namespace Sys2Proof.Machine

/-! ## Command words with an operand (R72) -/

/-- R78: the word with an instruction's number decodes to it. -/
theorem decode_ofNat {n : Nat} {i : Instr} (h : (encode i).toNat = n) : decode (BitVec.ofNat 16 n) = .ok i := by
  rw [← h, BitVec.ofNat_toNat, BitVec.setWidth_eq, decode_encode]

/-! ## The cases of `set` and `clear` (R153, R155, R157) -/

section Keys

variable {k : Keyboard} {c : Byte} {i : Fin 6}

/-- R153: the mask of a modifier code has that code's bit and no other. -/
theorem modifierBit_getLsbD (hlo : 224 ≤ c.toNat) {j : Nat} (hj : j < 8) :
    (modifierBit c).getLsbD j = decide (c.toNat = 224 + j) := by
  rw [modifierBit, BitVec.getLsbD_shiftLeft, BitVec.getLsbD_one, Bool.eq_iff_iff]
  simp only [Bool.and_eq_true, Bool.not_eq_true', decide_eq_true_eq, decide_eq_false_iff_not]
  omega

/-- R150: no code is both a normal code and a modifier. -/
theorem isModifier_eq_false_of_le (hhi : c.toNat ≤ 101) : isModifier c = false := by
  rw [Bool.eq_false_iff, ne_eq, isModifier_iff]
  omega

theorem Keyboard.press_of_modifier (hm : isModifier c) :
    k.press c = (.ok, { k with ctrl := k.ctrl ||| modifierBit c }) :=
  if_pos hm

theorem Keyboard.press_of_present (hm : isModifier c = false) (hi : k.keys[i] = c) : k.press c = (.ok, k) := by
  have hfind : (k.find c).isSome := Option.isSome_iff_ne_none.mpr fun hnone => Keyboard.find_eq_none.mp hnone i hi
  simp [Keyboard.press, hm, hfind]

theorem Keyboard.press_of_full (hm : isModifier c = false) (habsent : ∀ i : Fin 6, k.keys[i] ≠ c)
    (hfull : ∀ i : Fin 6, k.keys[i] ≠ 0) : k.press c = (.capacityExhausted, k) := by
  have hempty : k.firstEmpty = none := Keyboard.find_eq_none.mpr hfull
  simp [Keyboard.press, hm, Keyboard.find_eq_none.mpr habsent, hempty]

theorem Keyboard.press_of_firstEmpty (hm : isModifier c = false) (habsent : ∀ i : Fin 6, k.keys[i] ≠ c)
    (hi : k.keys[i] = 0) (hfirst : ∀ j : Fin 6, j < i → k.keys[j] ≠ 0) : k.press c = (.ok, k.setSlot i c) := by
  have hempty : k.firstEmpty = some i := Keyboard.find_eq_some.mpr ⟨hi, hfirst⟩
  simp [Keyboard.press, hm, Keyboard.find_eq_none.mpr habsent, hempty]

theorem Keyboard.release_of_modifier (hm : isModifier c) :
    k.release c = (.ok, { k with ctrl := k.ctrl &&& ~~~modifierBit c }) :=
  if_pos hm

theorem Keyboard.release_of_absent (hm : isModifier c = false) (habsent : ∀ i : Fin 6, k.keys[i] ≠ c) :
    k.release c = (.keyNotFound, k) := by
  simp [Keyboard.release, hm, Keyboard.find_eq_none.mpr habsent]

theorem Keyboard.release_of_first (hm : isModifier c = false) (hi : k.keys[i] = c)
    (hfirst : ∀ j : Fin 6, j < i → k.keys[j] ≠ c) : k.release c = (.ok, k.setSlot i 0) := by
  simp [Keyboard.release, hm, Keyboard.find_eq_some.mpr ⟨hi, hfirst⟩]

/-- R170: the bytes of the report one by one. -/
theorem Keyboard.serialize_eq (k : Keyboard) : k.serialize =
    [k.ctrl, 0x00, k.keys[0], k.keys[1], k.keys[2], k.keys[3], k.keys[4], k.keys[5]] := by
  obtain ⟨ctrl, ⟨⟨slots⟩, hsize⟩⟩ := k
  match slots, hsize with
  | [_, _, _, _, _, _], _ => rfl

end Keys

/-! ## KB_SET and KB_CLR (R152, R155, R157) -/

section Operations

variable {s : State} {c : Byte} {r : ResultCode} {k : Keyboard}

theorem exec_kbSet (hlegal : s.cfg.legal) (hc : isKeyCode c) (hpress : s.kb.press c = (r, k)) :
    exec (.kbSet c) s = .next (({ s with kb := k } : State).record (Result.plain r)) :=
  execKbSet_next.mpr ⟨hlegal, hc, by rw [hpress]⟩

theorem exec_kbClr (hlegal : s.cfg.legal) (hc : isKeyCode c) (hrelease : s.kb.release c = (r, k)) :
    exec (.kbClr c) s = .next (({ s with kb := k } : State).record (Result.plain r)) :=
  execKbClr_next.mpr ⟨hlegal, hc, by rw [hrelease]⟩

/-- R152: both operations turn away a code that is none of the block's. -/
theorem exec_kbSet_of_not_isKeyCode (hlegal : s.cfg.legal) (hc : ¬ isKeyCode c) :
    exec (.kbSet c) s = .refused (.notAKeyCode c) :=
  (guarded_of_legal hlegal _).trans (if_neg hc)

theorem exec_kbClr_of_not_isKeyCode (hlegal : s.cfg.legal) (hc : ¬ isKeyCode c) :
    exec (.kbClr c) s = .refused (.notAKeyCode c) :=
  (guarded_of_legal hlegal _).trans (if_neg hc)

end Operations

/-- Settles O31: each clause is one case of `set`, recorded by `exec_kbSet`. -/
theorem kbSetPressesAKey : Obligations.KbSetPressesAKey := by
  refine ⟨fun c => decode_ofNat (encode_toNat _), fun s c hlegal =>
    ⟨fun hnot => ?_, fun hlo hhi => ?_, fun hlo hhi => ?_⟩⟩
  · exact exec_kbSet_of_not_isKeyCode hlegal (mt isKeyCode_iff.mp hnot)
  · refine ⟨s.kb.ctrl ||| modifierBit c, exec_kbSet hlegal (isKeyCode_iff.mpr (.inl ⟨hlo, hhi⟩))
      (Keyboard.press_of_modifier (isModifier_iff.mpr ⟨hlo, hhi⟩)), fun j hj => ?_⟩
    rw [BitVec.getLsbD_or, modifierBit_getLsbD hlo hj]
  · have hkey : isKeyCode c := isKeyCode_iff.mpr (.inr ⟨hlo, hhi⟩)
    have hm : isModifier c = false := isModifier_eq_false_of_le hhi
    exact ⟨fun ⟨_, hi⟩ => exec_kbSet hlegal hkey (Keyboard.press_of_present hm hi),
      fun habsent hfull => exec_kbSet hlegal hkey (Keyboard.press_of_full hm habsent hfull),
      fun _ habsent hi hfirst => exec_kbSet hlegal hkey (Keyboard.press_of_firstEmpty hm habsent hi hfirst)⟩

/-- Settles O32: each clause is one case of `clear`, recorded by `exec_kbClr`. -/
theorem kbClrReleasesAKey : Obligations.KbClrReleasesAKey := by
  refine ⟨fun c => decode_ofNat (encode_toNat _), fun s c hlegal =>
    ⟨fun hnot => ?_, fun hlo hhi => ?_, fun hlo hhi => ?_⟩⟩
  · exact exec_kbClr_of_not_isKeyCode hlegal (mt isKeyCode_iff.mp hnot)
  · refine ⟨s.kb.ctrl &&& ~~~modifierBit c, exec_kbClr hlegal (isKeyCode_iff.mpr (.inl ⟨hlo, hhi⟩))
      (Keyboard.release_of_modifier (isModifier_iff.mpr ⟨hlo, hhi⟩)), fun j hj => ?_⟩
    rw [BitVec.getLsbD_and, BitVec.getLsbD_not, modifierBit_getLsbD hlo hj, decide_eq_true hj, Bool.true_and]
  · have hkey : isKeyCode c := isKeyCode_iff.mpr (.inr ⟨hlo, hhi⟩)
    have hm : isModifier c = false := isModifier_eq_false_of_le hhi
    exact ⟨fun habsent => exec_kbClr hlegal hkey (Keyboard.release_of_absent hm habsent),
      fun _ hi hfirst => exec_kbClr hlegal hkey (Keyboard.release_of_first hm hi hfirst)⟩

/-! ## KB_APPLY (R160) -/

/-- R160: one key of KB_APPLY is KB_SET or KB_CLR of its code. -/
theorem exec_kbSet_or_kbClr {s : State} {c : Byte} (p : Prop) [Decidable p] (hlegal : s.cfg.legal) (hc : isKeyCode c) :
    exec (if p then .kbSet c else .kbClr c) s = .next
      (({ s with kb := (s.kb.applyKey (decide p) c).2 } : State).record
        (Result.plain (s.kb.applyKey (decide p) c).1)) := by
  by_cases hp : p
  · simp only [hp, if_true, decide_true]
    exact exec_kbSet hlegal hc rfl
  · simp only [hp, if_false, decide_false]
    exact exec_kbClr hlegal hc rfl

/-- R160: the detail byte holds key B's code above key A's, and the first code that is not OK is the result's. -/
theorem Result.ofApply_eq (rA rB : ResultCode) : Result.ofApply rA rB =
    { code := if rA = .ok then rB else rA
      detail := BitVec.ofNat 8 (16 * rB.toByte.toNat + rA.toByte.toNat), payload := none } := by
  cases rA <;> cases rB <;> rfl

/-- Settles O34: the two halves of `execKbApply_next` are the operations of `exec_kbSet_or_kbClr`, the
second on the state the first left. -/
theorem kbApplyIsKeyAThenKeyB : Obligations.KbApplyIsKeyAThenKeyB := by
  refine ⟨fun m => decode_ofNat (encode_toNat _), fun s m hlegal => ?_⟩
  obtain ⟨-, -, hkeyA, hkeyB, -⟩ := config_legal_iff.mp hlegal
  have hbitA : m.getLsbD 0 = decide (m.toNat % 2 = 1) := Nat.testBit_zero m.toNat
  have hbitB : m.getLsbD 1 = decide (m.toNat / 2 % 2 = 1) := Nat.testBit_eq_decide_div_mod_eq
  refine ⟨_, _, _, _, exec_kbSet_or_kbClr _ hlegal hkeyA, rfl, exec_kbSet_or_kbClr _ hlegal hkeyB, rfl,
    execKbApply_next.mpr ⟨hlegal, ?_⟩⟩
  rw [hbitA, hbitB, Result.ofApply_eq]
  rfl

/-! ## KB_SER and KB_SEND (R170, R172) -/

/-- Settles O40: KB_SER's one effect, its report byte by byte. -/
theorem kbSerEmitsTheReport : Obligations.KbSerEmitsTheReport := by
  refine ⟨decode_encode .kbSer, fun s hlegal => execKbSer_next.mpr ⟨hlegal, ?_⟩⟩
  rw [Keyboard.serialize_eq]
  rfl

theorem reportCharacteristic_eq (c : Config) (m : ProtocolMode) :
    reportCharacteristic c m = if m = .boot then c.chrKbBoot else c.chrKbReport := by
  cases m <;> rfl

/-- Settles O41: KB_SEND's one effect; its result is the response's, case by case. -/
theorem kbSendHandsTheReportOver : Obligations.KbSendHandsTheReportOver := by
  refine ⟨decode_encode .kbSend, fun s hlegal =>
    ⟨Result.ofResponse (s.response 0), execKbSend_next.mpr ⟨hlegal, ?_⟩, ?_, fun e he => ?_⟩⟩
  · rw [Keyboard.serialize_eq, reportCharacteristic_eq]
    rfl
  · rintro (hok | hnotConnected)
    · rw [hok]
      rfl
    · rw [hnotConnected]
      rfl
  · rw [he]
    rfl

end Sys2Proof.Machine

/-! SUPPORT. Proofs about the battery packer (spec/43_battery.md): the power-state word as the sum of its sub-fields, and
the effects of BAT_COMPUTE and BAT_NOTIFY. -/

namespace Sys2Proof.Machine

/-! ## The power-state word (R37, R192, R194) -/

/-- R37: a sub-field set above every bit of a word adds its code at its offset, for a code that fits it. -/
theorem toNat_or_subField {w : Word} {n width pos code : Nat} (hw : w.toNat = n)
    (hfits : n < 2 ^ pos ∧ code < 2 ^ width ∧ pos + width ≤ 16) :
    (w ||| subField width pos code).toNat = 2 ^ pos * code + n := by
  obtain ⟨hn, hcode, hend⟩ := hfits
  have hwidth : 2 ^ width ≤ 2 ^ 16 := Nat.pow_le_pow_right (by decide) (by omega)
  have hplaced : 2 ^ pos * code < 2 ^ 16 := calc
    2 ^ pos * code < 2 ^ pos * 2 ^ width := Nat.mul_lt_mul_of_pos_left hcode (Nat.two_pow_pos pos)
    _ = 2 ^ (pos + width) := (Nat.pow_add 2 pos width).symm
    _ ≤ 2 ^ 16 := Nat.pow_le_pow_right (by decide) hend
  have hfield : (subField width pos code).toNat = 2 ^ pos * code := by
    rw [subField, BitVec.toNat_shiftLeft, BitVec.toNat_setWidth, BitVec.toNat_ofNat, Nat.mod_eq_of_lt hcode,
      Nat.mod_eq_of_lt (hcode.trans_le hwidth), Nat.shiftLeft_eq, Nat.mul_comm, Nat.mod_eq_of_lt hplaced]
  rw [BitVec.toNat_or, hfield, hw, Nat.or_comm, Nat.two_pow_add_eq_or_of_lt hn]

/-- R37, R194: the packed word is the sum of its codes at their offsets, set one above the other from bit 0 up. -/
theorem toNat_packPowerState {wired wireless state level ctype : Nat} (hwired : wired ≤ 3) (hwireless : wireless ≤ 3)
    (hstate : state ≤ 3) (hlevel : level ≤ 3) (hctype : ctype ≤ 1) :
    (packPowerState wired wireless state level ctype).toNat =
      512 * ctype + (128 * level + (32 * state + (8 * wireless + (2 * wired + 1)))) := by
  have hpresent : (subField 1 0 codePresent).toNat = 1 := rfl
  refine toNat_or_subField (toNat_or_subField (toNat_or_subField (toNat_or_subField
    (toNat_or_subField hpresent ?_) ?_) ?_) ?_) ?_ <;> omega

/-- R192: the tier of every level is a code of the charge-level sub-field. -/
theorem chargeTier_le {k : Codes} (hk : k.legal) (l : Byte) : chargeTier k l ≤ 3 := by
  obtain ⟨-, -, -, -, -, hgood, hlow, hcritical, -, -, -⟩ := codes_legal_iff.mp hk
  rw [chargeTier]
  split
  · exact hcritical
  · split
    · exact hlow
    · exact hgood

/-- R37: each code read back from its sub-field, the present bit set and bits 15:10 zero. -/
theorem packPowerState_fields {wired wireless state level ctype : Nat} (hwired : wired ≤ 3) (hwireless : wireless ≤ 3)
    (hstate : state ≤ 3) (hlevel : level ≤ 3) (hctype : ctype ≤ 1) :
    let ps := (packPowerState wired wireless state level ctype).toNat
    ps % 2 = 1 ∧ ps / 2 % 4 = wired ∧ ps / 8 % 4 = wireless ∧ ps / 32 % 4 = state ∧ ps / 128 % 4 = level ∧
      ps / 512 % 2 = ctype ∧ ps / 1024 = 0 := by
  rw [toNat_packPowerState hwired hwireless hstate hlevel hctype]
  omega

/-- Settles O43: for either charge flag the word packs the five codes R194 names, all legal, so `packPowerState_fields`
reads each of them back. -/
theorem powerStateFieldsHoldTheirCodes : Obligations.PowerStateFieldsHoldTheirCodes := by
  intro k l ch hk
  obtain ⟨hconnected, hunknown, hnever, hcharging, hdischarge, -, -, -, hnotCharging, hcurrent, hnone⟩ :=
    codes_legal_iff.mp hk
  cases ch with
  | true =>
    obtain ⟨hpresent, hwired, hwireless, hstate, hlevel, htype, hhigh⟩ :=
      packPowerState_fields hconnected hnever hcharging (chargeTier_le hk l) hcurrent
    exact ⟨hpresent, hwired, hwireless, hstate, hlevel, htype, hhigh, computeStatus_flags k l true⟩
  | false =>
    obtain ⟨hpresent, hwired, hwireless, hstate, hlevel, htype, hhigh⟩ :=
      packPowerState_fields hunknown hnever hdischarge hnotCharging hnone
    exact ⟨hpresent, hwired, hwireless, hstate, hlevel, htype, hhigh, computeStatus_flags k l false⟩

/-! ## BAT_COMPUTE (R195) -/

/-- Settles O42: BAT_COMPUTE's one effect, its flags byte zero by `computeStatus_flags`. -/
theorem batComputeOverwritesTheStatus : Obligations.BatComputeOverwritesTheStatus := by
  refine ⟨fun l ch => decode_ofNat (encode_toNat _), fun s l ch hlegal => execBatCompute_next.mpr ⟨hlegal, ?_⟩⟩
  rw [Battery.compute, computeStatus_flags]
  rfl

/-! ## BAT_NOTIFY (R200, R202, R204) -/

/-- R202: the layout chooses whether the flags byte goes last or first. -/
theorem statusBytes_eq (layout : StatusLayout) (ps : Word) (fl : Byte) : statusBytes layout ps fl =
    if layout = .powerStateFirst then [ps.extractLsb' 0 8, ps.extractLsb' 8 8, fl]
    else [fl, ps.extractLsb' 0 8, ps.extractLsb' 8 8] := by
  cases layout <;> rfl

/-- R220: any response but `Other(e)` is success. -/
theorem Result.ofResponse_of_ne_other {r : Response} (h : ∀ e, r ≠ .other e) : Result.ofResponse r = Result.ok := by
  cases r with
  | ok | notConnected => rfl
  | other e => exact absurd rfl (h e)

/-- R200: where the level call succeeded the status call alone decides. -/
theorem Result.ofResponses_of_ne_other {r1 r2 : Response} (h : ∀ e, r1 ≠ .other e) :
    Result.ofResponses r1 r2 = Result.ofResponse r2 := by
  cases r1 with
  | ok | notConnected => rfl
  | other e => exact absurd rfl (h e)

/-- Settles O45: the two cases of `execBatNotify_next`; the result's clauses follow the first call's response, then the
second's. -/
theorem batNotifySendsLevelThenStatus : Obligations.BatNotifySendsLevelThenStatus := by
  refine ⟨fun l => decode_ofNat (encode_toNat _), fun s l hlegal => ⟨fun habove => ?_, fun hle => ?_⟩⟩
  · exact execBatNotify_next.mpr ⟨hlegal, .inl ⟨habove, rfl⟩⟩
  · refine ⟨Result.ofResponses (s.response 0) (s.response 1),
      execBatNotify_next.mpr ⟨hlegal, .inr ⟨hle, ?_⟩⟩, fun e he => ?_, fun e hlevel he => ?_, fun hlevel hstatus => ?_⟩
    · rw [State.record_notify_notify, statusBytes_eq]
      rfl
    · rw [he]
      rfl
    · rw [Result.ofResponses_of_ne_other hlevel, he]
      rfl
    · rw [Result.ofResponses_of_ne_other hlevel, Result.ofResponse_of_ne_other hstatus]
      rfl

end Sys2Proof.Machine

/-! SUPPORT. Proofs about stops and results (spec/60_exceptions.md): when an operation is refused, and the codes an
operation returns with their causes. -/

namespace Sys2Proof.Machine

/-! ## Refusals (R229) -/

section Refusals

variable {i : Instr} {s : State}

/-- R108, R134, R152: under a legal configuration an operation that does not go on is refused. -/
theorem exec_refused_of_not_accepts (hlegal : s.cfg.legal) (hacc : ¬ accepts i s) : ∃ r, exec i s = .refused r := by
  cases i with
  | runDeb => exact ⟨_, (guarded_of_legal hlegal _).trans (if_neg hacc)⟩
  | runLp => exact ⟨_, (guarded_of_legal hlegal _).trans (if_neg hacc)⟩
  | kbSet c => exact ⟨_, exec_kbSet_of_not_isKeyCode hlegal hacc⟩
  | kbClr c => exact ⟨_, exec_kbClr_of_not_isKeyCode hlegal hacc⟩
  | _ => exact absurd trivial hacc

/-- R222, R227: no operation faults. -/
theorem exec_refused_or_next (i : Instr) (s : State) : (∃ r, exec i s = .refused r) ∨ ∃ t, exec i s = .next t := by
  by_cases hlegal : s.cfg.legal
  · by_cases hacc : accepts i s
    · exact .inr ⟨_, exec_eq_next.mpr ⟨hlegal, hacc, rfl⟩⟩
    · exact .inl (exec_refused_of_not_accepts hlegal hacc)
  · exact .inl ⟨_, exec_of_illegal (Bool.eq_false_iff.mpr hlegal)⟩

theorem exec_refused_iff : (∃ r, exec i s = .refused r) ↔ ¬ s.cfg.legal ∨ ¬ accepts i s := by
  rw [← not_and_or]
  constructor
  · rintro ⟨r, hr⟩ ⟨hlegal, hacc⟩
    cases hr.symm.trans (exec_eq_next.mpr ⟨hlegal, hacc, rfl⟩)
  · intro hnot
    refine (exec_refused_or_next i s).resolve_right fun ⟨t, ht⟩ => hnot ?_
    obtain ⟨hlegal, hacc, -⟩ := exec_eq_next.mp ht
    exact ⟨hlegal, hacc⟩

/-- R108, R134, R152: the operations that may not go on, and why. -/
theorem not_accepts_iff : ¬ accepts i s ↔
    (i = .runDeb ∧ s.deb.state ≠ .queued) ∨ (i = .runLp ∧ s.lp.state ≠ .queued) ∨
      ∃ c, (i = .kbSet c ∨ i = .kbClr c) ∧ ¬ isKeyCode c := by
  cases i <;> simp [accepts]

theorem step_refused_iff {c : Command} {rest : List Command} (h : s.commands = c :: rest) :
    (∃ r, step s = .refused r) ↔
      (∃ e, decode c.word = .error e) ∨ ∃ i r, decode c.word = .ok i ∧ exec i (s.present c rest) = .refused r := by
  cases hdecode : decode c.word with
  | error e => simp [step_of_decode_error h hdecode]
  | ok i => simp [step_of_decode_ok h hdecode]

end Refusals

/-- Settles O9: a step is refused by its word or by its operation, an operation by its configuration or because it does
not accept its state. -/
theorem operationsAreRefusedExactlyAsListed : Obligations.OperationsAreRefusedExactlyAsListed := by
  refine ⟨fun s c rest h => step_refused_iff h, fun i s => ⟨?_, exec_refused_or_next i s⟩⟩
  simp only [exec_refused_iff, not_accepts_iff, isKeyCode_iff]

/-! ## The codes of `set` and `clear` (R155, R157) -/

section KeyCodes

variable {k : Keyboard} {c : Byte}

/-- R155: `set` fails in one way, and then leaves the encoder as it was. -/
theorem Keyboard.press_ok_or_full (k : Keyboard) (c : Byte) :
    (k.press c).1 = .ok ∨ k.press c = (.capacityExhausted, k) := by
  obtain ⟨-, h⟩ | ⟨-, -, h⟩ | ⟨-, -, -, h⟩ | ⟨-, -, i, -, -, h⟩ := k.press_cases c <;> simp [h]

/-- R157: `clear` fails in one way, and then leaves the encoder as it was. -/
theorem Keyboard.release_ok_or_absent (k : Keyboard) (c : Byte) :
    (k.release c).1 = .ok ∨ k.release c = (.keyNotFound, k) := by
  obtain ⟨-, h⟩ | ⟨-, -, h⟩ | ⟨-, i, -, -, h⟩ := k.release_cases c <;> simp [h]

theorem not_isModifier_iff_normal (hc : isKeyCode c) : ¬ isModifier c ↔ 1 ≤ c.toNat ∧ c.toNat ≤ 101 := by
  rw [isKeyCode_iff] at hc
  rw [isModifier_iff]
  omega

theorem Keyboard.press_capacityExhausted_iff (hc : isKeyCode c) : (k.press c).1 = .capacityExhausted ↔
    (1 ≤ c.toNat ∧ c.toNat ≤ 101) ∧ ∀ j : Fin 6, k.keys[j] ≠ c ∧ k.keys[j] ≠ 0 := by
  rw [← not_isModifier_iff_normal hc]
  obtain ⟨hm, h⟩ | ⟨-, ⟨i, hi⟩, h⟩ | ⟨hm, habsent, hfull, h⟩ | ⟨-, -, i, hi, -, h⟩ := k.press_cases c <;> rw [h]
  · simp [hm]
  · exact iff_of_false (by simp) fun hcause => (hcause.2 i).1 hi
  · exact iff_of_true rfl ⟨hm, fun j => ⟨habsent j, hfull j⟩⟩
  · exact iff_of_false (by simp) fun hcause => (hcause.2 i).2 hi

theorem Keyboard.release_keyNotFound_iff (hc : isKeyCode c) : (k.release c).1 = .keyNotFound ↔
    (1 ≤ c.toNat ∧ c.toNat ≤ 101) ∧ ∀ j : Fin 6, k.keys[j] ≠ c := by
  rw [← not_isModifier_iff_normal hc]
  obtain ⟨hm, h⟩ | ⟨hm, habsent, h⟩ | ⟨-, i, hi, -, h⟩ := k.release_cases c <;> rw [h]
  · simp [hm]
  · exact iff_of_true rfl ⟨hm, habsent⟩
  · exact iff_of_false (by simp) fun hcause => hcause.2 i hi

theorem Keyboard.applyKey_code (k : Keyboard) (down : Bool) (c : Byte) : (k.applyKey down c).1 = .ok ∨
    (k.applyKey down c).1 = .capacityExhausted ∨ (k.applyKey down c).1 = .keyNotFound := by
  cases down with
  | true => exact (k.press_ok_or_full c).imp_right fun h => .inl (congrArg Prod.fst h)
  | false => exact (k.release_ok_or_absent c).imp_right fun h => .inr (congrArg Prod.fst h)

end KeyCodes

/-! ## The results of transport responses (R172, R200, R220) -/

section Responses

variable {r1 r2 : Response} {e : Nat}

theorem Result.ofResponse_ok_or_other (r : Response) :
    Result.ofResponse r = Result.ok ∨ ∃ e, Result.ofResponse r = Result.ofResponse (.other e) := by
  cases r with
  | ok | notConnected => exact .inl rfl
  | other e => exact .inr ⟨e, rfl⟩

theorem Result.ofResponse_code_ne_invalid (r : Response) : (Result.ofResponse r).code ≠ .invalidBatteryLevel := by
  cases r <;> simp [Result.ofResponse, Result.ok, Result.plain]

theorem Result.ofResponse_payload {r : Response} : (Result.ofResponse r).payload = some e ↔ r = .other e := by
  cases r <;> simp [Result.ofResponse, Result.ok, Result.plain]

/-- R200: the result is one response's, the status call's only where the level call succeeded. -/
theorem Result.ofResponses_cases (r1 r2 : Response) :
    (∃ e, r1 = .other e ∧ Result.ofResponses r1 r2 = Result.ofResponse r1) ∨
      ((∀ e, r1 ≠ .other e) ∧ Result.ofResponses r1 r2 = Result.ofResponse r2) := by
  cases r1 with
  | ok | notConnected => exact .inr ⟨nofun, rfl⟩
  | other e => exact .inl ⟨e, rfl, rfl⟩

theorem Result.exists_ofResponses_eq (r1 r2 : Response) : ∃ r, Result.ofResponses r1 r2 = Result.ofResponse r :=
  (Result.ofResponses_cases r1 r2).elim (fun ⟨_, _, h⟩ => ⟨r1, h⟩) fun ⟨_, h⟩ => ⟨r2, h⟩

theorem Result.ofResponses_payload : (Result.ofResponses r1 r2).payload = some e ↔
    r1 = .other e ∨ ((∀ e', r1 ≠ .other e') ∧ r2 = .other e) := by
  obtain ⟨e', rfl, h⟩ | ⟨hne, h⟩ := Result.ofResponses_cases r1 r2
  · simp [h, Result.ofResponse_payload]
  · simp [h, Result.ofResponse_payload, hne]

end Responses

/-! ## The results an operation can return (R220, R221) -/

/-- R220, R221: the results an operation can return from the state `s`; a KB_SET or KB_CLR that fails leaves the encoder
as it was, and KB_APPLY reports the codes of these two alone. -/
inductive Returns (s : State) : Instr → Result → Prop where
  | ok (i : Instr) : Returns s i Result.ok
  | full (c : Byte) (h : s.kb.press c = (.capacityExhausted, s.kb)) :
    Returns s (.kbSet c) (Result.plain .capacityExhausted)
  | absent (c : Byte) (h : s.kb.release c = (.keyNotFound, s.kb)) :
    Returns s (.kbClr c) (Result.plain .keyNotFound)
  | aboveHundred (l : Byte) : Returns s (.batNotify l) (Result.plain .invalidBatteryLevel)
  | sendFailed (e : Nat) : Returns s .kbSend (Result.ofResponse (.other e))
  | notifyFailed (l : Byte) (e : Nat) : Returns s (.batNotify l) (Result.ofResponse (.other e))
  | apply (m : ButtonMask) (r : Result) (hcode : r.code = .ok ∨ r.code = .capacityExhausted ∨ r.code = .keyNotFound)
      (hpayload : r.payload = none) :
    Returns s (.kbApply m) r

theorem returns_returned (i : Instr) (s : State) : Returns s i (returned i s) := by
  cases i with
  | kbSet c =>
    obtain h | h := s.kb.press_ok_or_full c <;> rw [returned, h]
    · exact .ok _
    · exact .full c h
  | kbClr c =>
    obtain h | h := s.kb.release_ok_or_absent c <;> rw [returned, h]
    · exact .ok _
    · exact .absent c h
  | kbApply m =>
    refine .apply m _ ?_ rfl
    simp only [returned, Result.ofApply]
    split
    · exact Keyboard.applyKey_code ..
    · exact Keyboard.applyKey_code ..
  | kbSend =>
    obtain h | ⟨e, h⟩ := Result.ofResponse_ok_or_other (s.response 0) <;> rw [returned, h]
    · exact .ok _
    · exact .sendFailed e
  | batNotify l =>
    rw [returned]
    split
    · exact .aboveHundred l
    · obtain ⟨r, hr⟩ := Result.exists_ofResponses_eq (s.response 0) (s.response 1)
      rw [hr]
      obtain h | ⟨e, h⟩ := Result.ofResponse_ok_or_other r <;> rw [h]
      · exact .ok _
      · exact .notifyFailed l e
  | _ => exact .ok _

namespace Returns

variable {s : State} {i : Instr} {r : Result}

theorem payload_isSome_iff (h : Returns s i r) : r.payload.isSome ↔ r.code = .transportOther := by
  cases h with
  | apply m r hcode hpayload => obtain hc | hc | hc := hcode <;> simp [hc, hpayload]
  | _ => simp [Result.ok, Result.plain, Result.ofResponse]

theorem detail_eq_zero (h : Returns s i r) (hi : ∀ m, i ≠ .kbApply m) : r.detail = 0 := by
  cases h with
  | apply m => exact absurd rfl (hi m)
  | _ => rfl

/-- R221: the operations that return each failing code. -/
theorem operation_of_code (h : Returns s i r) :
    (r.code = .capacityExhausted → (∃ c, i = .kbSet c) ∨ ∃ m, i = .kbApply m) ∧
    (r.code = .keyNotFound → (∃ c, i = .kbClr c) ∨ ∃ m, i = .kbApply m) ∧
    (r.code = .invalidBatteryLevel → ∃ l, i = .batNotify l) ∧
    (r.code = .transportOther → i = .kbSend ∨ ∃ l, i = .batNotify l) := by
  cases h with
  | apply m r hcode => obtain hc | hc | hc := hcode <;> simp [hc]
  | _ => simp [Result.ok, Result.plain, Result.ofResponse]

/-- R220: a failing operation other than KB_APPLY writes no field of the block. -/
theorem written_eq (h : Returns s i r) (hcode : r.code ≠ .ok) (hi : ∀ m, i ≠ .kbApply m) : written i s = s := by
  cases h with
  | ok => exact absurd rfl hcode
  | full c h | absent c h => rw [written, h]
  | aboveHundred | sendFailed | notifyFailed => rfl
  | apply m => exact absurd rfl (hi m)

end Returns

/-! ## The operations with results of their own (R160, R172, R200) -/

section Results

variable {s t : State} {l : Byte}

theorem exec_results {i : Instr} (h : exec i s = .next t) : t.results = s.results ++ [returned i s] := by
  obtain ⟨-, -, rfl⟩ := exec_eq_next.mp h
  simp

theorem returned_batNotify_of_le (hl : l.toNat ≤ 100) :
    returned (.batNotify l) s = Result.ofResponses (s.response 0) (s.response 1) :=
  if_neg (Nat.not_lt.mpr hl)

/-- R200: a level above 100 makes no call. -/
theorem emitted_batNotify_of_lt (hl : 100 < l.toNat) : emitted (.batNotify l) s = [] :=
  if_pos hl

/-- R200: any other level makes both calls, whatever the first one's response. -/
theorem emitted_batNotify_of_le (hl : l.toNat ≤ 100) : emitted (.batNotify l) s =
    [.notify s.cfg.chrLevel [l] (s.response 0),
      .notify s.cfg.chrStatus (statusBytes s.cfg.statusLayout s.bat.powerState s.bat.flags) (s.response 1)] :=
  if_neg (Nat.not_lt.mpr hl)

theorem returned_batNotify_invalid_iff :
    (returned (.batNotify l) s).code = .invalidBatteryLevel ↔ 100 < l.toNat := by
  by_cases hl : 100 < l.toNat
  · exact iff_of_true (congrArg Result.code (if_pos hl)) hl
  · obtain ⟨r, hr⟩ := Result.exists_ofResponses_eq (s.response 0) (s.response 1)
    rw [returned_batNotify_of_le (Nat.not_lt.mp hl), hr]
    exact iff_of_false (Result.ofResponse_code_ne_invalid r) hl

theorem Result.ofApply_detail (rA rB : ResultCode) :
    (Result.ofApply rA rB).detail.toNat = 16 * rB.toByte.toNat + rA.toByte.toNat := by
  cases rA <;> cases rB <;> rfl

/-- R160: KB_APPLY's state and result are those of its two halves, KB_SET or KB_CLR of key A and then of key B. -/
theorem exec_kbApply_halves {m : ButtonMask} (h : exec (.kbApply m) s = .next t) : ∃ tA tB rA rB,
    exec (if m.getLsbD 0 then .kbSet s.cfg.keyA else .kbClr s.cfg.keyA) s = .next tA ∧
    tA.results = s.results ++ [Result.plain rA] ∧
    exec (if m.getLsbD 1 then .kbSet s.cfg.keyB else .kbClr s.cfg.keyB) tA = .next tB ∧
    tB.results = tA.results ++ [Result.plain rB] ∧ t.kb = tB.kb ∧ returned (.kbApply m) s = Result.ofApply rA rB := by
  obtain ⟨hlegal, rfl⟩ := execKbApply_next.mp h
  obtain ⟨-, -, hkeyA, hkeyB, -⟩ := config_legal_iff.mp hlegal
  refine ⟨_, _, _, _, exec_kbSet_or_kbClr _ hlegal hkeyA, rfl, exec_kbSet_or_kbClr _ hlegal hkeyB, rfl, ?_, ?_⟩
  · simp
  · simp [returned]

end Results

/-- Settles O49: what holds of every operation is read off `returns_returned`; the clauses of KB_SET, KB_CLR, KB_APPLY,
KB_SEND and BAT_NOTIFY follow from what `returned` and `emitted` say of them. -/
theorem operationReturnsOneListedResult : Obligations.OperationReturnsOneListedResult := by
  refine ⟨⟨rfl, rfl, rfl, rfl, rfl⟩, fun i s t ht => ⟨returned i s, exec_results ht, ?_⟩⟩
  have hreturns : Returns s i (returned i s) := returns_returned i s
  obtain ⟨hfull, habsent, hlevel, htransport⟩ := hreturns.operation_of_code
  refine ⟨hreturns.payload_isSome_iff, hreturns.detail_eq_zero, hfull, habsent, hlevel, htransport,
    ?_, ?_, ?_, ?_, ?_, ?_⟩
  · intro hcode hi
    obtain ⟨-, -, rfl⟩ := exec_eq_next.mp ht
    rw [hreturns.written_eq hcode hi]
    rfl
  · rintro c rfl
    obtain ⟨-, hkey, -⟩ := exec_eq_next.mp ht
    exact Keyboard.press_capacityExhausted_iff hkey
  · rintro c rfl
    obtain ⟨-, hkey, -⟩ := exec_eq_next.mp ht
    exact Keyboard.release_keyNotFound_iff hkey
  · rintro m rfl
    obtain ⟨tA, tB, rA, rB, hA, hresA, hB, hresB, hkb, hr⟩ := exec_kbApply_halves ht
    rw [hr, Result.ofApply_detail, Result.ofApply_eq]
    exact ⟨tA, tB, rA, rB, hA, hresA, hB, hresB, hkb, rfl, rfl⟩
  · rintro rfl
    exact ⟨_, _, exec_trace ht, fun e => Result.ofResponse_payload⟩
  · rintro l rfl
    have htrace : t.trace = s.trace ++ emitted (.batNotify l) s := exec_trace ht
    refine ⟨returned_batNotify_invalid_iff, fun hl => ?_, fun hl => ⟨?_, fun e => ?_⟩⟩
    · rw [htrace, emitted_batNotify_of_lt hl, List.append_nil]
    · rw [emitted_batNotify_of_le hl] at htrace
      exact ⟨_, _, _, _, htrace⟩
    · rw [returned_batNotify_of_le hl]
      exact Result.ofResponses_payload

end Sys2Proof.Machine

/-! SUPPORT. Proof about reset (spec/70_reset_and_hazards.md): the state RESET leaves. -/

namespace Sys2Proof.Machine

/-- Settles O12: from any state, the timers' included, RESET has the one effect of `execReset_next`: `State.boot`, which
is the reset column field by field, with the result recorded. -/
theorem resetRebuildsBootState : Obligations.ResetRebuildsBootState :=
  ⟨decode_encode .reset, fun _ hlegal => execReset_next.mpr ⟨hlegal, rfl⟩⟩

end Sys2Proof.Machine

/-! SUPPORT. Proofs about decoding and encoding as inverses (spec/30_encoding.md R73, R78, R79), the invariants of R43, and
the legal events of R36 and R60. -/

namespace Sys2Proof.Machine

/-! ## Command words (R73, R78, R79) -/

/-- Settles O1: every operand has the bits of its field, and the decoder reads them back. -/
theorem decodeOfEncodeIsInstruction : Obligations.DecodeOfEncodeIsInstruction :=
  decode_encode

/-- Settles O2: the class and the fields the decoder tested make up the whole word. -/
theorem encodeOfDecodeIsWord : Obligations.EncodeOfDecodeIsWord :=
  fun _ _ => encode_of_decode

/-- Settles O6: seven examples are the words of their instructions, and three fail one check of the decoder each. -/
theorem encodingExamplesDecode : Obligations.EncodingExamplesDecode :=
  ⟨decode_encode (.edge .B), decode_encode (.kbSet 224), decode_encode (.kbClr 4), decode_encode (.kbApply 0b011),
    decode_encode (.batCompute 50 true), decode_encode (.batCompute 5 false), decode_encode (.batNotify 101), rfl, rfl, rfl⟩

/-! ## The invariants (R43) -/

/-- R43: what an operation writes keeps each invariant; the counts an EDGE or a settlement arms a timer with are legal by
R10, and a callback's timer is QUEUED. -/
theorem written_inv {i : Instr} {s : State} (hinv : s.Inv) (hlegal : s.cfg.legal) (hacc : accepts i s) :
    (written i s).Inv := by
  obtain ⟨hdeb, hlp, hkb, hbat⟩ := hinv
  obtain ⟨⟨hdebLo, hdebHi⟩, ⟨hlpLo, hlpHi⟩, hkeyA, hkeyB, -⟩ := config_legal_iff.mp hlegal
  cases i with
  | reset =>
    exact ⟨Timer.off_disciplined _, Timer.off_disciplined _, Keyboard.reset_sound, Battery.compute_consistent _ 100 false⟩
  | edge b => exact ⟨Timer.armedFor_disciplined hdebLo hdebHi, hlp, hkb, hbat⟩
  | tick => exact ⟨Timer.tick_disciplined hdeb, Timer.tick_disciplined hlp, hkb, hbat⟩
  | runDeb =>
    refine ⟨Timer.taken_disciplined hdeb hacc, ?_, hkb, hbat⟩
    change (longPressAfter s (rawMask s.levels)).Disciplined s.cfg.tLp
    obtain ⟨-, e⟩ | ⟨-, e⟩ := longPressAfter_cases s (rawMask s.levels) <;> rw [e]
    · exact Timer.armedFor_disciplined hlpLo hlpHi
    · exact Timer.off_disciplined _
  | runLp => exact ⟨hdeb, Timer.taken_disciplined hlp hacc, hkb, hbat⟩
  | kbSet c => exact ⟨hdeb, hlp, Keyboard.press_sound hkb hacc, hbat⟩
  | kbClr c => exact ⟨hdeb, hlp, Keyboard.release_sound hkb c, hbat⟩
  | kbApply m => exact ⟨hdeb, hlp, Keyboard.applyKey_sound (Keyboard.applyKey_sound hkb _ hkeyA) _ hkeyB, hbat⟩
  | batCompute l ch => exact ⟨hdeb, hlp, hkb, Battery.compute_consistent _ l ch⟩
  | reg | kbSer | kbSend | batNotify => exact ⟨hdeb, hlp, hkb, hbat⟩

/-- Settles O51: presenting a command and recording what its operation emits and returns touch no field the invariants
speak of; what the operation writes keeps them by `written_inv`. -/
theorem stepKeepsTheInvariants : Obligations.StepKeepsTheInvariants := by
  intro s t hinv hstep
  obtain ⟨c, rest, i, -, -, hexec⟩ := step_eq_next.mp hstep
  obtain ⟨hlegal, hacc, rfl⟩ := exec_eq_next.mp hexec
  exact written_inv (s := s.present c rest) hinv hlegal hacc

/-- Settles O52: RESET's values keep the invariants, and the model's configuration is legal. -/
theorem resetMeetsTheInvariants : Obligations.ResetMeetsTheInvariants :=
  ⟨⟨Timer.off_disciplined _, Timer.off_disciplined _, Keyboard.reset_sound, Battery.compute_consistent _ 100 false⟩,
    by decide⟩

/-- Settles O13: the state after reset is written out as R20's column, the status word of the default codes computed. -/
theorem resetStateIsTheResetColumn : Obligations.ResetStateIsTheResetColumn :=
  ⟨rfl, rfl, rfl, rfl, rfl, rfl, rfl, rfl, rfl, rfl, rfl, rfl, by decide⟩

/-! ## Legal events (R36, R60, R170) -/

theorem mem_eventIf {p : Bool} {e e' : Event} : e' ∈ eventIf p e ↔ p = true ∧ e' = e := by
  cases p <;> simp [eventIf]

/-- R36, R140: the ButtonMask of a settlement is one of the four with bit 2 clear. -/
theorem settledMask_cases (raw : RawMask) :
    0#1 ++ raw = (0b000 : ButtonMask) ∨ 0#1 ++ raw = (0b001 : ButtonMask) ∨ 0#1 ++ raw = (0b010 : ButtonMask) ∨
      0#1 ++ raw = (0b011 : ButtonMask) := by
  revert raw
  decide

/-- R170: byte 1 of a report is zero. -/
theorem Keyboard.serialize_byte1 (k : Keyboard) : k.serialize[1]? = some 0 := by
  rw [Keyboard.serialize_eq]
  rfl

/-- R60: the protocol mode selects one of the two characteristics that take eight bytes. -/
theorem reportCharacteristic_cases (c : Config) (m : ProtocolMode) :
    reportCharacteristic c m = c.chrKbReport ∨ reportCharacteristic c m = c.chrKbBoot := by
  cases m with
  | boot => exact .inr rfl
  | report => exact .inl rfl

theorem emitted_legal {i : Instr} {s : State} {e : Event} (he : e ∈ emitted i s) : e.Legal s.cfg := by
  cases i with
  | runDeb =>
    obtain ⟨-, rfl⟩ := mem_eventIf.mp he
    obtain h | h | h | h := settledMask_cases (rawMask s.levels) <;> simp [Event.Legal, h]
  | runLp =>
    obtain ⟨-, rfl⟩ := mem_eventIf.mp he
    exact .inr (.inr (.inr (.inr rfl)))
  | kbSer =>
    obtain rfl := List.mem_singleton.mp he
    exact ⟨s.kb.serialize_length, s.kb.serialize_byte1⟩
  | kbSend =>
    obtain rfl := List.mem_singleton.mp he
    exact .inl ⟨reportCharacteristic_cases _ _, s.kb.serialize_length⟩
  | batNotify l =>
    by_cases hl : 100 < l.toNat
    · rw [emitted_batNotify_of_lt hl] at he
      cases he
    · rw [emitted_batNotify_of_le (Nat.not_lt.mp hl), List.mem_pair] at he
      obtain rfl | rfl := he
      · exact .inr (.inl ⟨rfl, rfl⟩)
      · exact .inr (.inr ⟨rfl, statusBytes_length ..⟩)
  | _ => cases he

/-- Settles O53: a step appends the events of its operation, all legal by `emitted_legal`. -/
theorem stepEmitsLegalEventsOnly : Obligations.StepEmitsLegalEventsOnly := by
  intro s t htrace hstep e he
  obtain ⟨c, rest, i, -, -, hexec⟩ := step_eq_next.mp hstep
  rw [exec_keeps_cfg hexec]
  rw [exec_trace hexec, List.mem_append] at he
  exact he.elim (htrace e) emitted_legal

/-! ## Steps and runs (R70, R240) -/

/-- Settles O8: presenting the command is the three updates of the statement. -/
theorem stepPerformsThePresentedOperation : Obligations.StepPerformsThePresentedOperation :=
  fun _ _ _ _ => step_of_decode_ok

section Stream

variable {i : Instr} {s t : State} {r : Refusal}

theorem exec_keeps_commands (h : exec i s = .next t) : t.commands = s.commands := by
  obtain ⟨-, -, rfl⟩ := exec_eq_next.mp h
  simp

/-- R21: an operation goes on alike whatever commands are yet to come. -/
theorem exec_withCommands_of_next (h : exec i s = .next t) (cs : List Command) :
    exec i { s with commands := cs } = .next { t with commands := cs } := by
  rw [exec_withCommands, h]

theorem exec_withCommands_of_refused (h : exec i s = .refused r) (cs : List Command) :
    exec i { s with commands := cs } = .refused r := by
  rw [exec_withCommands, h]

theorem coreRun_succ_of_next (n : Nat) (h : step s = .next t) :
    Host.Core.run Sys2Proof.core (n + 1) s = Host.Core.run Sys2Proof.core n t := by
  simp only [Host.Core.run, Sys2Proof.core, h]

theorem coreRun_succ_of_refused (n : Nat) (h : step s = .refused r) :
    Host.Core.run Sys2Proof.core (n + 1) s = .refused r := by
  simp only [Host.Core.run, Sys2Proof.core, h]

theorem runOps_cons_of_next {inp : Inputs} (ops : List Presented) (h : exec i (s.give inp) = .next t) :
    runOps ((i, inp) :: ops) s = runOps ops t := by
  rw [runOps, h]

theorem runOps_cons_of_refused {inp : Inputs} (ops : List Presented) (h : exec i (s.give inp) = .refused r) :
    runOps ((i, inp) :: ops) s = .refused r := by
  rw [runOps, h]

/-- A step on the command of an operation performs the operation as a run presents it. -/
theorem step_of_toCommand (op : Presented) (s : State) (rest cs : List Command) :
    step { s with commands := op.toCommand :: cs } =
      exec op.1 { ({ s with commands := rest } : State).give op.2 with commands := cs } :=
  step_of_decode_ok (c := op.toCommand) (rest := cs) rfl (decode_encode op.1)

end Stream

/-- Settles O11, by induction on the operations: the stream is no concern of an operation, so the step performs what the
run performs, and the rest of the stream waits for the steps after it. -/
theorem streamRunIsOperationRun : Obligations.StreamRunIsOperationRun := by
  intro ops s rest
  induction ops generalizing s with
  | nil => rfl
  | cons op ops ih =>
    obtain ⟨i, inp⟩ := op
    have hstep := step_of_toCommand (i, inp) s rest (ops.map Presented.toCommand ++ rest)
    obtain ⟨r, h⟩ | ⟨t, h⟩ := exec_refused_or_next i (({ s with commands := rest } : State).give inp)
    · rw [runOps_cons_of_refused ops h]
      exact coreRun_succ_of_refused ops.length (hstep.trans (exec_withCommands_of_refused h _))
    · have hrest : { t with commands := rest } = t := by
        rw [show rest = t.commands from (exec_keeps_commands h).symm]
      rw [runOps_cons_of_next ops h, ← hrest, ← ih t]
      exact coreRun_succ_of_next ops.length (hstep.trans (exec_withCommands_of_next h _))

end Sys2Proof.Machine

/-! SUPPORT. Proofs about the two timers over runs (spec/40_debounce.md, spec/41_longpress.md): a timer that nothing rearms,
cancels or takes counts the TICKs, and from this the quiet period of R105 and the deadline of R132; the two callbacks. -/

namespace Sys2Proof.Machine

/-! ## A timer left to the TICKs (R104) -/

/-- R104: a TICK of a timer with more than one tick to go, its count within 16 bits. -/
theorem Timer.tick_armedFor {n : Nat} (hlo : 1 < n) (hhi : n ≤ 65535) :
    (Timer.armedFor n).tick = Timer.armedFor (n - 1) := by
  have hcnt : (Timer.armedFor n).cnt.toNat = n := Nat.mod_eq_of_lt (by omega)
  have hne : (Timer.armedFor n).cnt ≠ 1 := fun h => by
    have hone := congrArg BitVec.toNat h
    rw [hcnt] at hone
    exact absurd hone (Nat.ne_of_gt hlo)
  have hsub : BitVec.ofNat 16 n - 1 = BitVec.ofNat 16 (n - 1) := by bv_omega
  rw [Timer.tick_counts rfl hne, Timer.armedFor, Timer.armedFor, hsub]

/-- R104: `n` TICKs after it was armed for `ticks`, a timer has so many fewer to go, or has expired. -/
theorem Timer.iterate_tick_armedFor {ticks : Nat} (hlo : 1 ≤ ticks) (hhi : ticks ≤ 65535) (n : Nat) :
    Timer.tick^[n] (Timer.armedFor ticks) =
      if n < ticks then Timer.armedFor (ticks - n) else { state := .queued, cnt := 0 } := by
  induction n with
  | zero => rw [if_pos (by omega)]; rfl
  | succ n ih =>
    rw [Function.iterate_succ_apply', ih]
    obtain hlt | heq | hgt : n + 1 < ticks ∨ ticks = n + 1 ∨ ticks < n + 1 := by omega
    · rw [if_pos (by omega), if_pos hlt, Timer.tick_armedFor (by omega) (by omega), Nat.sub_sub]
    · rw [if_pos (by omega), if_neg (by omega), heq, Nat.add_sub_cancel_left]
      rfl
    · rw [if_neg (by omega), if_neg (by omega)]
      exact Timer.tick_of_queued rfl

section Runs

variable {i : Instr} {s t : State} {ops : List Presented}

theorem runOps_keeps_cfg (h : runOps ops s = .next t) : t.cfg = s.cfg := by
  induction ops generalizing s with
  | nil => cases h; rfl
  | cons op ops ih =>
    obtain ⟨u, hexec, hrun⟩ := runOps_cons.mp h
    rw [ih hrun, exec_keeps_cfg hexec, State.give_cfg]

theorem ticksIn_cons (op : Presented) (ops : List Presented) :
    ticksIn (op :: ops) = ticksIn ops + if op.1 = .tick then 1 else 0 := by
  simp [ticksIn, List.countP_cons]

/-- A timer on which every operation of the run acts as a TICK or not at all. -/
theorem runOps_iterate_tick (timer : State → Timer) (hgive : ∀ (s : State) (inp : Inputs), timer (s.give inp) = timer s)
    (hexec : ∀ op ∈ ops, ∀ s t, exec op.1 s = .next t → timer t = if op.1 = .tick then (timer s).tick else timer s)
    (h : runOps ops s = .next t) : timer t = Timer.tick^[ticksIn ops] (timer s) := by
  induction ops generalizing s with
  | nil => cases h; rfl
  | cons op ops ih =>
    obtain ⟨hop, hops⟩ := List.forall_mem_cons.mp hexec
    obtain ⟨u, hu, hrun⟩ := runOps_cons.mp h
    rw [ih hops hrun, hop _ _ hu, hgive, ticksIn_cons]
    split
    · rw [Function.iterate_succ_apply]
    · rfl

/-- R100, R104, R108, R250: the operations that act on the debounce timer otherwise than by a TICK are EDGE, RESET and
RUN_DEB. -/
theorem exec_deb_of_not_rearmed (hedge : ∀ b, i ≠ .edge b) (hreset : i ≠ .reset) (hrunDeb : i ≠ .runDeb)
    (h : exec i s = .next t) : t.deb = if i = .tick then s.deb.tick else s.deb := by
  cases i with
  | edge b => exact absurd rfl (hedge b)
  | reset => exact absurd rfl hreset
  | runDeb => exact absurd rfl hrunDeb
  | tick => exact exec_deb h
  | _ => exact exec_sameField (f := .debTimer) h rfl

/-- R104, R108, R134, R250: those that act on the long-press timer otherwise are RUN_DEB, RESET and RUN_LP. -/
theorem exec_lp_of_not_rearmed (hrunDeb : i ≠ .runDeb) (hreset : i ≠ .reset) (hrunLp : i ≠ .runLp)
    (h : exec i s = .next t) : t.lp = if i = .tick then s.lp.tick else s.lp := by
  cases i with
  | runDeb => exact absurd rfl hrunDeb
  | reset => exact absurd rfl hreset
  | runLp => exact absurd rfl hrunLp
  | tick => exact exec_lp h
  | _ => exact exec_sameField (f := .lpTimer) h rfl

/-- R105: after an EDGE, with nothing that rearms, cancels or takes the debounce timer. -/
theorem runOps_edge_deb {b : Button} {inp : Inputs} (hlegal : s.cfg.legal)
    (hops : ∀ op ∈ ops, (∀ b', op.1 ≠ .edge b') ∧ op.1 ≠ .reset ∧ op.1 ≠ .runDeb)
    (h : runOps ((.edge b, inp) :: ops) s = .next t) :
    t.deb = if ticksIn ops < s.cfg.tDeb then Timer.armedFor (s.cfg.tDeb - ticksIn ops)
      else { state := .queued, cnt := 0 } := by
  obtain ⟨⟨hlo, hhi⟩, -⟩ := config_legal_iff.mp hlegal
  obtain ⟨u, hu, hrun⟩ := runOps_cons.mp h
  have hcount := runOps_iterate_tick State.deb (fun _ _ => rfl) (fun op hop s t hexec =>
    let ⟨hedge, hreset, hrunDeb⟩ := hops op hop
    exec_deb_of_not_rearmed hedge hreset hrunDeb hexec) hrun
  rw [hcount, exec_deb hu]
  exact Timer.iterate_tick_armedFor hlo hhi _

/-- R132: after a settlement on both levels, with nothing that rearms, cancels or takes the long-press timer. -/
theorem runOps_runDeb_lp {inp : Inputs} (hlegal : s.cfg.legal) (hlevels : (s.give inp).levels = { a := true, b := true })
    (hops : ∀ op ∈ ops, op.1 ≠ .runDeb ∧ op.1 ≠ .reset ∧ op.1 ≠ .runLp)
    (h : runOps ((.runDeb, inp) :: ops) s = .next t) :
    t.lp = if ticksIn ops < s.cfg.tLp then Timer.armedFor (s.cfg.tLp - ticksIn ops)
      else { state := .queued, cnt := 0 } := by
  obtain ⟨-, ⟨hlo, hhi⟩, -⟩ := config_legal_iff.mp hlegal
  obtain ⟨u, hu, hrun⟩ := runOps_cons.mp h
  have hcount := runOps_iterate_tick State.lp (fun _ _ => rfl) (fun op hop s t hexec =>
    let ⟨hrunDeb, hreset, hrunLp⟩ := hops op hop
    exec_lp_of_not_rearmed hrunDeb hreset hrunLp hexec) hrun
  have harmed : u.lp = Timer.armedFor s.cfg.tLp := (exec_lp hu).trans (if_pos (rawMask_eq_both.mpr hlevels))
  rw [hcount, harmed]
  exact Timer.iterate_tick_armedFor hlo hhi _

end Runs

theorem Timer.tick_queued_cases {t : Timer} (h : t.tick.state = .queued) (hnot : t.state ≠ .queued) :
    t.state = .armed ∧ t.cnt.toNat = 1 := by
  by_cases harmed : t.state = .armed
  · by_cases hone : t.cnt = 1
    · exact ⟨harmed, congrArg BitVec.toNat hone⟩
    · rw [Timer.tick_counts harmed hone] at h
      cases h
  · rw [Timer.tick_of_not_armed harmed] at h
    exact absurd h hnot

/-- Settles O16: the run counts the TICKs by `runOps_edge_deb`; of the operations that write the debounce timer, only TICK
can leave it QUEUED. -/
theorem quietPeriodEndsAtTheTDebthTick : Obligations.QuietPeriodEndsAtTheTDebthTick := by
  refine ⟨fun s t b inp ops hlegal hops h => runOps_edge_deb hlegal hops h, fun i s t h hq hnot => ?_⟩
  cases i with
  | tick =>
    rw [exec_deb h] at hq
    exact ⟨rfl, Timer.tick_queued_cases hq hnot⟩
  | reset | edge | runDeb =>
    rw [exec_deb h] at hq
    cases hq
  | _ =>
    have hkept : t.deb = s.deb := exec_sameField (f := .debTimer) h rfl
    exact absurd (hkept ▸ hq) hnot

/-- Settles O27: the sample the RUN_DEB names is the one it settles on; `runOps_runDeb_lp` counts the TICKs. -/
theorem longPressDeadlineIsTLpTicksAfterArming : Obligations.LongPressDeadlineIsTLpTicksAfterArming :=
  fun _ _ _ _ hlegal hlevels hops h => runOps_runDeb_lp hlegal (State.levels_of_inputs _ _ hlevels) hops h

/-! ## Runs of EDGEs and TICKs (R114, R120) -/

section Edges

variable {s t : State} {ops : List Presented}

/-- R100, R104: a run of EDGEs and TICKs completes, and leaves what a settlement reads. -/
theorem runOps_of_edges_and_ticks (hlegal : s.cfg.legal)
    (hops : ∀ op ∈ ops, op.1 = .tick ∨ ∃ b, op.1 = .edge b) :
    ∃ t, runOps ops s = .next t ∧ t.cfg = s.cfg ∧ t.trace = s.trace ∧ t.consumerReg = s.consumerReg ∧
      t.lastSettled = s.lastSettled := by
  induction ops generalizing s with
  | nil => exact ⟨s, rfl, rfl, rfl, rfl, rfl⟩
  | cons op ops ih =>
    obtain ⟨i, inp⟩ := op
    obtain ⟨hop, hrest⟩ := List.forall_mem_cons.mp hops
    obtain ⟨u, hu, hcfg, htrace, hreg, hlast⟩ : ∃ u, exec i (s.give inp) = .next u ∧ u.cfg = s.cfg ∧
        u.trace = s.trace ∧ u.consumerReg = s.consumerReg ∧ u.lastSettled = s.lastSettled := by
      obtain rfl | ⟨b, rfl⟩ := hop
      · exact ⟨_, execTick_next.mpr ⟨hlegal, rfl⟩, rfl, rfl, rfl, rfl⟩
      · exact ⟨_, execEdge_next.mpr ⟨hlegal, rfl⟩, rfl, rfl, rfl, rfl⟩
    obtain ⟨t, ht, hcfg', htrace', hreg', hlast'⟩ := ih (s := u) (by rwa [hcfg]) hrest
    exact ⟨t, runOps_cons.mpr ⟨u, hu, ht⟩, hcfg'.trans hcfg, htrace'.trans htrace, hreg'.trans hreg,
      hlast'.trans hlast⟩

theorem edges_append (bs bs' : List (Button × Nat)) : edges (bs ++ bs') = edges bs ++ edges bs' :=
  List.flatMap_append

theorem edges_singleton (b : Button) (n : Nat) : edges [(b, n)] = (.edge b, Inputs.free) :: ticking n :=
  List.flatMap_singleton ..

theorem eq_tick_of_mem_ticking {n : Nat} {op : Presented} (h : op ∈ ticking n) : op.1 = .tick := by
  rw [List.eq_of_mem_replicate h]

theorem ticksIn_ticking (n : Nat) : ticksIn (ticking n) = n := by
  simp [ticksIn, ticking, List.countP_replicate]

theorem tick_or_edge_of_mem_edges {bs : List (Button × Nat)} {op : Presented} (h : op ∈ edges bs) :
    op.1 = .tick ∨ ∃ b, op.1 = .edge b := by
  obtain ⟨⟨b, n⟩, -, hop⟩ := List.mem_flatMap.mp h
  obtain rfl | hop := List.mem_cons.mp hop
  · exact .inr ⟨b, rfl⟩
  · exact .inl (eq_tick_of_mem_ticking hop)

/-- R105: a run of EDGEs and TICKs leaves the debounce timer as its last EDGE and the TICKs after that make it. -/
theorem runOps_edges_concat_deb {bs : List (Button × Nat)} {b : Button} {n : Nat} (hlegal : s.cfg.legal)
    (h : runOps (edges (bs ++ [(b, n)])) s = .next t) :
    t.deb = if n < s.cfg.tDeb then Timer.armedFor (s.cfg.tDeb - n) else { state := .queued, cnt := 0 } := by
  rw [edges_append, edges_singleton] at h
  obtain ⟨u, hu, hlast⟩ := runOps_append.mp h
  rw [← runOps_keeps_cfg hu] at hlegal ⊢
  have hdeb := runOps_edge_deb hlegal (fun op hop => by simp [eq_tick_of_mem_ticking hop]) hlast
  rwa [ticksIn_ticking] at hdeb

end Edges

/-- Settles O17: the run completes with nothing emitted; its last EDGE, fewer than `T_DEB` TICKs ago, has the timer
ARMED. -/
theorem closeEdgesNeverSettle : Obligations.CloseEdgesNeverSettle := by
  intro s bs hlegal hne hgaps
  obtain ⟨t, ht, -, htrace, -, -⟩ := runOps_of_edges_and_ticks hlegal (ops := edges bs) fun _ => tick_or_edge_of_mem_edges
  refine ⟨t, ht, ?_, htrace⟩
  obtain ⟨bs', ⟨b, n⟩, rfl⟩ := (List.eq_nil_or_concat bs).resolve_left hne
  rw [List.concat_eq_append] at ht hgaps
  rw [runOps_edges_concat_deb hlegal ht, if_pos (hgaps (b, n) (by simp))]
  rfl

/-! ## The two callbacks (R108, R134) -/

section Callbacks

variable {s : State}

theorem eventIf_eq_ite {p : Bool} {q : Prop} [Decidable q] (h : p = true ↔ q) (e : Event) :
    eventIf p e = if q then [e] else [] := by
  simp only [eventIf, h]

/-- R110: a settlement sends unless it is suppressed for an unchanged mask. -/
theorem settlementSends_iff {raw : RawMask} :
    settlementSends s raw = true ↔ s.cfg.suppressUnchanged = false ∨ raw ≠ s.lastSettled := by
  simp [settlementSends]

theorem levels_eq_both_iff {lv : PerButton Bool} : lv = { a := true, b := true } ↔ lv.a = true ∧ lv.b = true := by
  rw [PerButton.mk.injEq]

theorem longPressAfter_eq_ite (s : State) (lv : PerButton Bool) :
    longPressAfter s (rawMask lv) = if lv.a ∧ lv.b then Timer.armedFor s.cfg.tLp else Timer.off := by
  simp only [longPressAfter, rawMask_eq_both, levels_eq_both_iff]

theorem exec_runDeb (hlegal : s.cfg.legal) (hq : s.deb.state = .queued) :
    exec .runDeb s = .next ((settle s s.levels).record Result.ok) :=
  execRunDeb_next.mpr ⟨hlegal, hq, rfl⟩

theorem exec_runLp (hlegal : s.cfg.legal) (hq : s.lp.state = .queued) :
    exec .runLp s = .next ((expire s s.levels).record Result.ok) :=
  execRunLp_next.mpr ⟨hlegal, hq, rfl⟩

theorem exec_runLp_of_not_queued (hlegal : s.cfg.legal) (hq : s.lp.state ≠ .queued) :
    exec .runLp s = .refused .longPressNotQueued :=
  (guarded_of_legal hlegal _).trans (if_neg hq)

theorem exec_runDeb_of_not_queued (hlegal : s.cfg.legal) (hq : s.deb.state ≠ .queued) :
    exec .runDeb s = .refused .debounceNotQueued :=
  (guarded_of_legal hlegal _).trans (if_neg hq)

end Callbacks

/-- Settles O18: the EDGEs and TICKs leave the debounce timer QUEUED and nothing emitted; the RUN_DEB then settles once, on
the sample it names. -/
theorem coalescedEdgesSettleOnce : Obligations.CoalescedEdgesSettleOnce := by
  intro s bs b inp lv hlegal _ hlevels
  obtain ⟨u, hu, hcfg, htrace, hreg, hlast⟩ := runOps_of_edges_and_ticks hlegal
    (ops := edges (bs ++ [(b, s.cfg.tDeb)])) fun _ => tick_or_edge_of_mem_edges
  have hq : u.deb.state = .queued := by rw [runOps_edges_concat_deb hlegal hu, if_neg (Nat.lt_irrefl _)]
  have hsample : (u.give inp).levels = lv := State.levels_of_inputs _ _ hlevels
  have hsettle := exec_runDeb (s := u.give inp) (by rwa [State.give_cfg, hcfg]) hq
  rw [hsample] at hsettle
  refine ⟨_, runOps_append.mpr ⟨u, by rwa [← edges_append], runOps_cons.mpr ⟨_, hsettle, rfl⟩⟩, rfl, rfl, rfl, ?_⟩
  have hevent : eventIf (settlementSends (u.give inp) (rawMask lv) && u.consumerReg) (.button (0#1 ++ rawMask lv)) =
      if s.consumerReg ∧ (s.cfg.suppressUnchanged = false ∨ rawMask lv ≠ s.lastSettled)
        then [.button (0#1 ++ rawMask lv)] else [] := by
    refine eventIf_eq_ite ?_ _
    rw [Bool.and_eq_true, settlementSends_iff, State.give_cfg, State.give_lastSettled, hcfg, hlast, hreg, and_comm]
  calc (settle (u.give inp) lv).trace
    _ = u.trace ++ eventIf (settlementSends (u.give inp) (rawMask lv) && u.consumerReg) _ := settle_trace ..
    _ = _ := by rw [hevent, htrace]; rfl

/-- Settles O20: the settlement's fields are the statement's, its condition and its long-press timer written out. -/
theorem settlementActsOnItsSample : Obligations.SettlementActsOnItsSample := by
  refine ⟨decode_encode .runDeb, fun s => exec_runDeb_of_not_queued, fun s hlegal hq => ?_⟩
  have hevent := eventIf_eq_ite (p := settlementSends s (rawMask s.levels) && s.consumerReg)
    (q := (s.cfg.suppressUnchanged = false ∨ rawMask s.levels ≠ s.lastSettled) ∧ s.consumerReg)
    (by rw [Bool.and_eq_true, settlementSends_iff]) (.button (0#1 ++ rawMask s.levels))
  refine (exec_runDeb hlegal hq).trans ?_
  rw [settle, State.emitIf, hevent, longPressAfter_eq_ite]
  rfl

/-- Settles O28: the expiry's fields are the statement's, its condition written out. -/
theorem expiryActsOnAFreshSample : Obligations.ExpiryActsOnAFreshSample := by
  refine ⟨decode_encode .runLp, fun s => exec_runLp_of_not_queued, fun s hlegal hq => ?_⟩
  have hevent := eventIf_eq_ite (p := s.levels.a && s.levels.b && s.consumerReg)
    (q := s.levels.a ∧ s.levels.b ∧ s.consumerReg) (by simp [and_assoc]) (.button 0b111)
  refine (exec_runLp hlegal hq).trans ?_
  rw [expire, State.emitIf, hevent]
  rfl

end Sys2Proof.Machine

/-! SUPPORT. Proofs about the button events (spec/40_debounce.md, spec/41_longpress.md): where they come from, what a missing
consumer changes, the transitions of the long-press timer, and the history behind a long-press event. -/

namespace Sys2Proof.Machine

/-! ## The consumer and the source of an event (R102, R112) -/

/-- The state with the given value of `consumer_reg`. -/
def State.withConsumer (s : State) (b : Bool) : State :=
  { s with consumerReg := b }

/-- R112: a callback writes the same fields whether a consumer is registered or not. -/
theorem written_withConsumer {i : Instr} (s : State) (hi : i = .runDeb ∨ i = .runLp) (b : Bool) :
    written i (s.withConsumer b) = (written i s).withConsumer b := by
  obtain rfl | rfl := hi <;> rfl

theorem emitted_withConsumer_false {i : Instr} (s : State) (hi : i = .runDeb ∨ i = .runLp) :
    emitted i (s.withConsumer false) = [] := by
  obtain rfl | rfl := hi <;> simp [emitted, eventIf, State.withConsumer]

/-- Settles O22: the callback goes on and writes as it does with a consumer; only what it emits is missing. -/
theorem missingConsumerOnlyDiscardsTheEvent : Obligations.MissingConsumerOnlyDiscardsTheEvent := by
  intro i s t hi h
  obtain ⟨hlegal, hacc, rfl⟩ := exec_eq_next (s := s.withConsumer true).mp h
  have hacc' : accepts i (s.withConsumer false) := by obtain rfl | rfl := hi <;> exact hacc
  refine exec_eq_next (s := s.withConsumer false).mpr ⟨hlegal, hacc', ?_⟩
  rw [emitted_withConsumer_false s hi, written_withConsumer s hi, written_withConsumer s hi]
  obtain rfl | rfl := hi <;> simp [State.observe, State.withConsumer, written, returned, State.sample]

/-- R36: a settlement's mask is not the long-press one. -/
theorem settledMask_ne (raw : RawMask) : 0#1 ++ raw ≠ (0b111 : ButtonMask) := by
  revert raw
  decide

/-- R102, R134: the two sources of a button event. -/
theorem button_mem_emitted {i : Instr} {s : State} {m : ButtonMask} (h : Event.button m ∈ emitted i s) :
    (i = .runDeb ∧ m ≠ 0b111) ∨ (i = .runLp ∧ m = 0b111) := by
  cases i with
  | runDeb =>
    obtain ⟨-, hm⟩ := mem_eventIf.mp h
    exact .inl ⟨rfl, (Event.button.inj hm) ▸ settledMask_ne _⟩
  | runLp =>
    obtain ⟨-, hm⟩ := mem_eventIf.mp h
    exact .inr ⟨rfl, Event.button.inj hm⟩
  | batNotify l =>
    simp only [emitted] at h
    split at h <;> simp at h
  | _ => simp [emitted] at h

/-- Settles O23: the new events are those of `emitted`; a RUN_DEB that goes on found the timer QUEUED and leaves it IDLE. -/
theorem buttonEventsComeFromCallbacksOnly : Obligations.ButtonEventsComeFromCallbacksOnly := by
  intro i s t h
  refine ⟨emitted i s, exec_trace h, fun m hm => ?_⟩
  obtain ⟨rfl, hne⟩ | ⟨rfl, heq⟩ := button_mem_emitted hm
  · obtain ⟨-, hq, -⟩ := exec_eq_next.mp h
    exact .inl ⟨hne, rfl, hq, congrArg Timer.state (exec_deb h)⟩
  · exact .inr ⟨heq, rfl⟩

/-! ## The long-press timer (R130) -/

/-- R108, R130: a settlement never leaves the long-press timer QUEUED. -/
theorem longPressAfter_not_queued (s : State) (raw : RawMask) : (longPressAfter s raw).state ≠ .queued := by
  obtain ⟨-, h⟩ | ⟨-, h⟩ := longPressAfter_cases s raw <;> rw [h] <;> exact nofun

/-- Settles O25: the settlement takes the long-press timer out of QUEUED; the expiry leaves the debounce timer there. -/
theorem settlementFirstDropsTheQueuedLongPress : Obligations.SettlementFirstDropsTheQueuedLongPress :=
  fun _ hlegal hdeb hlp =>
    ⟨⟨_, exec_runDeb hlegal hdeb, exec_runLp_of_not_queued hlegal (longPressAfter_not_queued _ _)⟩,
      ⟨_, _, exec_runLp hlegal hlp, exec_runDeb hlegal hdeb⟩⟩

theorem exec_runDeb_lp {s t : State} (h : exec .runDeb s = .next t) :
    (s.levels = { a := true, b := true } ∧ t.lp = Timer.armedFor s.cfg.tLp) ∨
      (s.levels ≠ { a := true, b := true } ∧ t.lp = Timer.off) := by
  simp only [exec_lp h, ne_eq, ← rawMask_eq_both]
  exact longPressAfter_cases s (rawMask s.levels)

/-- Settles O26: an operation without a `w` for the long-press timer keeps it, and those with one are gone through one by
one. -/
theorem longPressTimerTransitions : Obligations.LongPressTimerTransitions := by
  intro i s t h
  cases i with
  | runDeb =>
    obtain ⟨hboth, e⟩ | ⟨hnot, e⟩ := exec_runDeb_lp h
    · exact ⟨fun _ => e, fun hnot => absurd hboth hnot⟩
    · exact ⟨fun hboth => absurd hboth hnot, fun _ => e⟩
  | tick =>
    have hlp : t.lp = s.lp.tick := exec_lp h
    rw [hlp]
    exact ⟨Timer.tick_of_one_lt_toNat, Timer.tick_of_toNat_eq_one, Timer.tick_of_not_armed⟩
  | runLp =>
    obtain ⟨-, hq, -⟩ := exec_eq_next.mp h
    exact ⟨hq, congrArg Timer.state (exec_lp h)⟩
  | reset => exact exec_lp h
  | _ => exact exec_sameField (f := .lpTimer) h rfl

/-! ## The history of a long press (R136, R138) -/

/-- R136 (a), (b): the run ends in a settlement on both levels and operations that do not touch its deadline. -/
def ArmedBy (s : State) (ops post : List Presented) : Prop :=
  ∃ pre d v, ops = pre ++ (.runDeb, d) :: post ∧ runOps pre s = .next v ∧
    (v.give d).levels = { a := true, b := true } ∧
    ∀ op ∈ post, op.1 ≠ .runDeb ∧ op.1 ≠ .reset ∧ op.1 ≠ .runLp

section History

variable {s u : State} {ops post : List Presented}

/-- A run that ended in such a settlement still does after an operation that does not touch the deadline. -/
theorem ArmedBy.concat {op : Presented} (h : ArmedBy s ops post)
    (hop : op.1 ≠ .runDeb ∧ op.1 ≠ .reset ∧ op.1 ≠ .runLp) : ArmedBy s (ops ++ [op]) (post ++ [op]) := by
  obtain ⟨pre, d, v, rfl, hpre, hlevels, hpost⟩ := h
  refine ⟨pre, d, v, by simp, hpre, hlevels, fun op' hop' => ?_⟩
  obtain hold | hnew := List.mem_append.mp hop'
  · exact hpost op' hold
  · rwa [List.mem_singleton.mp hnew]

/-- R132: such a run leaves the timer counting from the settlement. -/
theorem ArmedBy.lp (h : ArmedBy s ops post) (hlegal : s.cfg.legal) (hrun : runOps ops s = .next u) :
    u.lp = if ticksIn post < s.cfg.tLp then Timer.armedFor (s.cfg.tLp - ticksIn post)
      else { state := .queued, cnt := 0 } := by
  obtain ⟨pre, d, v, rfl, hpre, hlevels, hpost⟩ := h
  obtain ⟨v', hv', hrest⟩ := runOps_append.mp hrun
  obtain rfl : v = v' := by simpa [hpre] using hv'
  rw [← runOps_keeps_cfg hpre] at hlegal ⊢
  exact runOps_runDeb_lp hlegal hlevels hpost hrest

/-- R130: only a settlement on both levels takes the timer out of IDLE, so a run from IDLE ends IDLE or in the history of
one. -/
theorem runOps_lp_idle_or_armedBy (hidle : s.lp.state = .idle) (hrun : runOps ops s = .next u) :
    u.lp.state = .idle ∨ ∃ post, ArmedBy s ops post := by
  induction ops using List.reverseRecOn generalizing u with
  | nil =>
    cases hrun
    exact .inl hidle
  | append_singleton ops op ih =>
    obtain ⟨v, hv, hlast⟩ := runOps_append.mp hrun
    obtain ⟨i, inp⟩ := op
    obtain ⟨w, hexec, hw⟩ := runOps_cons.mp hlast
    cases hw
    by_cases hi : i ≠ .runDeb ∧ i ≠ .reset ∧ i ≠ .runLp
    · obtain ⟨hrunDeb, hreset, hrunLp⟩ := hi
      obtain hv' | ⟨post, hpost⟩ := ih hv
      · left
        rw [exec_lp_of_not_rearmed hrunDeb hreset hrunLp hexec, State.give_lp]
        split
        · rwa [Timer.tick_of_not_armed (by simp [hv'])]
        · exact hv'
      · exact .inr ⟨_, hpost.concat ⟨hrunDeb, hreset, hrunLp⟩⟩
    · obtain rfl | rfl | rfl : i = .runDeb ∨ i = .reset ∨ i = .runLp := by tauto
      · obtain ⟨hboth, -⟩ | ⟨-, hoff⟩ := exec_runDeb_lp hexec
        · exact .inr ⟨[], ops, inp, v, rfl, hv, hboth, by simp⟩
        · exact .inl (congrArg Timer.state hoff)
      · exact .inl (congrArg Timer.state (exec_lp hexec))
      · exact .inl (congrArg Timer.state (exec_lp hexec))

/-- R136 (a), (b), (c): when a run from an IDLE timer leaves it QUEUED. -/
theorem runOps_lp_queued_iff (hlegal : s.cfg.legal) (hidle : s.lp.state = .idle) (hrun : runOps ops s = .next u) :
    u.lp.state = .queued ↔ ∃ post, ArmedBy s ops post ∧ s.cfg.tLp ≤ ticksIn post := by
  constructor
  · intro hq
    obtain hidle' | ⟨post, hpost⟩ := runOps_lp_idle_or_armedBy hidle hrun
    · rw [hq] at hidle'
      cases hidle'
    · refine ⟨post, hpost, Nat.le_of_not_lt fun hlt => ?_⟩
      rw [hpost.lp hlegal hrun, if_pos hlt] at hq
      cases hq
  · rintro ⟨post, hpost, hle⟩
    rw [hpost.lp hlegal hrun, if_neg (Nat.not_lt.mpr hle)]

/-- R134, R136 (d), (e): when a RUN_LP emits. -/
theorem exec_runLp_emits_iff {s : State} (hlegal : s.cfg.legal) :
    (∃ t, exec .runLp s = .next t ∧ t.trace = s.trace ++ [.button 0b111]) ↔
      s.lp.state = .queued ∧ s.levels = { a := true, b := true } ∧ s.consumerReg = true := by
  have hemitted : emitted .runLp s = [.button 0b111] ↔
      s.levels = { a := true, b := true } ∧ s.consumerReg = true := by
    rw [emitted, eventIf, levels_eq_both_iff, ← Bool.and_eq_true, ← Bool.and_eq_true]
    split <;> simp_all
  constructor
  · rintro ⟨t, h, htrace⟩
    obtain ⟨-, hq, -⟩ := exec_eq_next.mp h
    rw [exec_trace h] at htrace
    exact ⟨hq, hemitted.mp (List.append_cancel_left htrace)⟩
  · rintro ⟨hq, hboth⟩
    have h := exec_runLp hlegal hq
    exact ⟨_, h, by rw [exec_trace h, hemitted.mpr hboth]⟩

end History

/-- Settles O29: the RUN_LP emits when it finds the timer QUEUED, both levels active and a consumer; the run leaves the
timer QUEUED when its history is one of holding. -/
theorem longPressEventIffItsHistory : Obligations.LongPressEventIffItsHistory := by
  intro s u ops inp hlegal hidle hrun
  have hlegal' : (u.give inp).cfg.legal := by rwa [State.give_cfg, runOps_keeps_cfg hrun]
  refine (exec_runLp_emits_iff hlegal').trans (and_congr_left' ?_)
  refine (runOps_lp_queued_iff hlegal hidle hrun).trans ⟨?_, ?_⟩
  · rintro ⟨post, ⟨pre, d, v, hops, hpre, hlevels, hpost⟩, hle⟩
    exact ⟨pre, d, post, v, hops, hpre, hlevels, hpost, hle⟩
  · rintro ⟨pre, d, post, v, hops, hpre, hlevels, hpost, hle⟩
    exact ⟨post, ⟨pre, d, v, hops, hpre, hlevels, hpost⟩, hle⟩

/-- R138: the long-press events still to come without a further arming settlement: one while the timer is not IDLE. -/
def pending (s : State) : Nat :=
  if s.lp.state = .idle then 0 else 1

section Armings

variable {s t : State} {i : Instr} {inp : Inputs} {ops : List Presented}

theorem pending_le_one (s : State) : pending s ≤ 1 := by
  rw [pending]
  split <;> decide

theorem pending_of_idle (h : s.lp.state = .idle) : pending s = 0 :=
  if_pos h

theorem longPressesIn_emitted_of_ne (hi : i ≠ .runLp) : longPressesIn (emitted i s) = 0 :=
  List.count_eq_zero.mpr fun h => (button_mem_emitted h).elim (fun ⟨_, hne⟩ => hne rfl) fun ⟨h, _⟩ => hi h

theorem longPressesIn_emitted_runLp_le : longPressesIn (emitted .runLp s) ≤ 1 := by
  rw [emitted, eventIf, longPressesIn]
  split <;> simp

theorem Timer.tick_state_idle_iff {t : Timer} : t.tick.state = .idle ↔ t.state = .idle := by
  by_cases harmed : t.state = .armed
  · rw [Timer.tick, if_pos harmed]
    split <;> simp [harmed]
  · rw [Timer.tick_of_not_armed harmed]

/-- One operation: a long-press event uses up the pending one, and only an arming settlement makes another pending. -/
theorem longPressesIn_exec_le (hnamed : i = .runDeb → inp.levels.isSome) (h : exec i (s.give inp) = .next t) :
    longPressesIn t.trace + pending t ≤ longPressesIn s.trace + pending s + armingsIn [(i, inp)] := by
  have htrace : longPressesIn t.trace = longPressesIn s.trace + longPressesIn (emitted i (s.give inp)) := by
    rw [exec_trace h, State.give_trace]
    exact List.count_append
  rw [htrace]
  by_cases hrunLp : i = .runLp
  · subst hrunLp
    obtain ⟨-, hq, -⟩ := exec_eq_next.mp h
    have hs : pending s = 1 := if_neg (by rw [show s.lp.state = .queued from hq]; decide)
    have ht : pending t = 0 := pending_of_idle (congrArg Timer.state (exec_lp h))
    have hone := longPressesIn_emitted_runLp_le (s := s.give inp)
    omega
  · rw [longPressesIn_emitted_of_ne hrunLp]
    by_cases hrunDeb : i = .runDeb
    · subst hrunDeb
      obtain ⟨hboth, -⟩ | ⟨-, hoff⟩ := exec_runDeb_lp h
      · obtain ⟨lv, hlv⟩ := Option.isSome_iff_exists.mp (hnamed rfl)
        rw [State.levels_of_inputs (s.give inp) lv hlv] at hboth
        have harming : armingsIn [(.runDeb, inp)] = 1 := by simp [armingsIn, hlv, hboth]
        have := pending_le_one t
        omega
      · have ht : pending t = 0 := pending_of_idle (congrArg Timer.state hoff)
        omega
    · have hpending : pending t ≤ pending s := by
        by_cases hreset : i = .reset
        · subst hreset
          rw [pending_of_idle (congrArg Timer.state (exec_lp h))]
          exact Nat.zero_le _
        · have hstate : t.lp.state = .idle ↔ s.lp.state = .idle := by
            rw [exec_lp_of_not_rearmed hrunDeb hreset hrunLp h]
            split
            · exact Timer.tick_state_idle_iff
            · rfl
          simp only [pending, hstate, Nat.le_refl]
      omega

/-- A run: the long-press events and the one pending come from the one pending before and the arming settlements. -/
theorem longPressesIn_runOps_le (hnamed : ∀ op ∈ ops, op.1 = .runDeb → op.2.levels.isSome)
    (h : runOps ops s = .next t) :
    longPressesIn t.trace + pending t ≤ longPressesIn s.trace + pending s + armingsIn ops := by
  induction ops generalizing s with
  | nil =>
    cases h
    exact Nat.le_refl _
  | cons op ops ih =>
    obtain ⟨i, inp⟩ := op
    obtain ⟨hop, hrest⟩ := List.forall_mem_cons.mp hnamed
    obtain ⟨u, hexec, hrun⟩ := runOps_cons.mp h
    have hfirst := longPressesIn_exec_le (i := i) (inp := inp) hop hexec
    have hsum : armingsIn ((i, inp) :: ops) = armingsIn [(i, inp)] + armingsIn ops :=
      List.countP_append (l₁ := [(i, inp)])
    have := ih hrest hrun
    omega

end Armings

/-- Settles O30: from an IDLE timer no event is pending, so the arming settlements pay for each. -/
theorem oneArmingYieldsAtMostOneLongPress : Obligations.OneArmingYieldsAtMostOneLongPress := by
  intro s t ops hidle hnamed h
  have hle := longPressesIn_runOps_le hnamed h
  rw [pending_of_idle hidle] at hle
  omega

/-! ## Owners (R232) -/

section Owners

variable {i : Instr} {s t : State}

theorem exec_kb_ne (h : exec i s = .next t) (hreset : i ≠ .reset) (hne : t.kb ≠ s.kb) :
    (∃ c, i = .kbSet c) ∨ (∃ c, i = .kbClr c) ∨ ∃ m, i = .kbApply m := by
  cases i with
  | reset => exact absurd rfl hreset
  | kbSet c => exact .inl ⟨c, rfl⟩
  | kbClr c => exact .inr (.inl ⟨c, rfl⟩)
  | kbApply m => exact .inr (.inr ⟨m, rfl⟩)
  | _ => exact absurd (kb_eq_of_sameField (exec_sameField h rfl) (exec_sameField h rfl)) hne

/-- The two rows of the battery are its whole state. -/
theorem bat_eq_of_sameField (hlevel : SameField .battLevelCharging s t) (hstatus : SameField .powerStateFlags s t) :
    t.bat = s.bat :=
  (Battery.mk.injEq ..).mpr ⟨hlevel.1, hlevel.2, hstatus.1, hstatus.2⟩

theorem exec_bat_ne (h : exec i s = .next t) (hreset : i ≠ .reset) (hne : t.bat ≠ s.bat) :
    ∃ l ch, i = .batCompute l ch := by
  cases i with
  | reset => exact absurd rfl hreset
  | batCompute l ch => exact ⟨l, ch, rfl⟩
  | _ => exact absurd (bat_eq_of_sameField (exec_sameField h rfl) (exec_sameField h rfl)) hne

/-- R38: the operations with a `w` for a field of the button state. -/
theorem owner_of_button_field {f : Field}
    (hf : f = .debTimer ∨ f = .lpTimer ∨ f = .rawLevel ∨ f = .lastChangeTime ∨ f = .lastSettled) (hreset : i ≠ .reset)
    (hw : mayWrite i f = true) : (∃ b, i = .edge b) ∨ i = .tick ∨ i = .runDeb ∨ i = .runLp := by
  cases i with
  | reset => exact absurd rfl hreset
  | edge b => exact .inl ⟨b, rfl⟩
  | tick => exact .inr (.inl rfl)
  | runDeb => exact .inr (.inr (.inl rfl))
  | runLp => exact .inr (.inr (.inr rfl))
  | _ => obtain rfl | rfl | rfl | rfl | rfl := hf <;> cases hw

theorem mayWrite_of_not_sameField {f : Field} (h : exec i s = .next t) (hne : ¬ SameField f s t) :
    mayWrite i f = true :=
  Bool.not_eq_false _ ▸ mt (exec_sameField h) hne

end Owners

/-- Settles O47: an operation changes a field only where R38's table has a `w`, and each column's `w`s are one owner's. -/
theorem eachStateIsMutatedByItsOwnerOnly : Obligations.EachStateIsMutatedByItsOwnerOnly := by
  refine fun i s t h hreset => ⟨exec_kb_ne h hreset, exec_bat_ne h hreset, fun hne => ?_⟩
  obtain hdeb | hlp | hraw | htime | hlast := hne
  · exact owner_of_button_field (f := .debTimer) (by simp) hreset (mayWrite_of_not_sameField h hdeb)
  · exact owner_of_button_field (f := .lpTimer) (by simp) hreset (mayWrite_of_not_sameField h hlp)
  · exact owner_of_button_field (f := .rawLevel) (by simp) hreset (mayWrite_of_not_sameField h hraw)
  · exact owner_of_button_field (f := .lastChangeTime) (by simp) hreset (mayWrite_of_not_sameField h htime)
  · exact owner_of_button_field (f := .lastSettled) (by simp) hreset (mayWrite_of_not_sameField h hlast)

end Sys2Proof.Machine

/-! SUPPORT. Proofs about KB_APPLY applied twice and read back (spec/42_keyboard.md R162, R164, R166), from when the report
shows a key and when `set` and `clear` change that; and the four status words of R196 (spec/43_battery.md). -/

namespace Sys2Proof.Machine

/-! ## The keys a report shows (R166) -/

/-- Does the encoder's report show the key pressed? -/
def Keyboard.shows (k : Keyboard) (c : Byte) : Bool :=
  reportShows k.serialize c

section Shows

variable {k : Keyboard} {c d : Byte} {down : Bool}

theorem Keyboard.shows_of_modifier (hm : isModifier c) : k.shows c = k.ctrl.getLsbD (c.toNat - 224) :=
  if_pos hm

theorem Keyboard.shows_iff_of_normal (hm : isModifier c = false) : k.shows c = true ↔ ∃ i : Fin 6, k.keys[i] = c := by
  rw [shows, reportShows, if_neg (by simp [hm]), List.contains_iff_mem]
  change c ∈ k.keys.toList ↔ _
  rw [Vector.mem_toList_iff, Vector.mem_iff_getElem, Fin.exists_iff]
  rfl

theorem Keyboard.shows_of_keys_eq {k' : Keyboard} (hm : isModifier c = false) (hkeys : k'.keys = k.keys) :
    k'.shows c = k.shows c := by
  rw [Bool.eq_iff_iff, shows_iff_of_normal hm, shows_iff_of_normal hm, hkeys]

theorem isModifier_of_isNormal (hn : isNormal c) : isModifier c = false :=
  isModifier_eq_false_of_le (isNormal_iff.mp hn).2

/-- R150: a key code is not 0, the sentinel of an empty slot. -/
theorem ne_zero_of_isKeyCode (hc : isKeyCode c) : c ≠ 0 := by
  rintro rfl
  exact absurd hc (by decide)

theorem isKeyCode_of_isNormal (hn : isNormal c) : isKeyCode c :=
  isKeyCode_iff.mpr (.inr (isNormal_iff.mp hn))

/-! ## A key that is as asked for: `set` and `clear` change nothing -/

/-- R155: to set a modifier bit that is set changes nothing. -/
theorem or_modifierBit_eq_self {ctrl : Byte} (hm : isModifier c) (h : ctrl.getLsbD (c.toNat - 224) = true) :
    ctrl ||| modifierBit c = ctrl := by
  refine BitVec.eq_of_getLsbD_eq fun j hj => ?_
  rw [BitVec.getLsbD_or, modifierBit_getLsbD (isModifier_iff.mp hm).1 hj]
  by_cases hbit : c.toNat = 224 + j
  · rw [hbit, Nat.add_sub_cancel_left] at h
    simp [h]
  · simp [hbit]

/-- R157: nor does it to clear one that is clear. -/
theorem and_not_modifierBit_eq_self {ctrl : Byte} (hm : isModifier c) (h : ctrl.getLsbD (c.toNat - 224) = false) :
    ctrl &&& ~~~modifierBit c = ctrl := by
  refine BitVec.eq_of_getLsbD_eq fun j hj => ?_
  rw [BitVec.getLsbD_and, BitVec.getLsbD_not, modifierBit_getLsbD (isModifier_iff.mp hm).1 hj]
  by_cases hbit : c.toNat = 224 + j
  · rw [hbit, Nat.add_sub_cancel_left] at h
    simp [h]
  · simp [hbit, hj]

/-- R162: a key that is already as asked for. -/
theorem Keyboard.applyKey_of_shows (h : k.shows c = down) : k.applyKey down c = (codeWhenRepeated down c .ok, k) := by
  by_cases hm : isModifier c
  · rw [shows_of_modifier hm] at h
    cases down with
    | true =>
      refine (press_of_modifier hm).trans ?_
      rw [or_modifierBit_eq_self hm h]
      rfl
    | false =>
      refine (release_of_modifier hm).trans ?_
      rw [and_not_modifierBit_eq_self hm h]
      simp [codeWhenRepeated, hm]
  · rw [Bool.not_eq_true] at hm
    cases down with
    | true =>
      obtain ⟨i, hi⟩ := (shows_iff_of_normal hm).mp h
      exact press_of_present hm hi
    | false =>
      have habsent : ∀ i : Fin 6, k.keys[i] ≠ c := fun i hi =>
        absurd ((shows_iff_of_normal hm).mpr ⟨i, hi⟩) (by simp [h])
      refine (release_of_absent hm habsent).trans ?_
      simp [codeWhenRepeated, hm]

/-! ## What `set` and `clear` do to the key and to another key (R155, R157) -/

/-- R153: `bit(c)` has the bit of `c` set. -/
theorem modifierBit_own (hm : isModifier c) : (modifierBit c).getLsbD (c.toNat - 224) = true := by
  obtain ⟨hlo, hhi⟩ := isModifier_iff.mp hm
  rw [modifierBit_getLsbD hlo (by omega), decide_eq_true_eq]
  omega

/-- R155: a set that succeeds leaves the key shown. -/
theorem Keyboard.shows_press_self (hok : (k.press c).1 = .ok) : (k.press c).2.shows c = true := by
  obtain ⟨hm, h⟩ | ⟨hm, hpresent, h⟩ | ⟨-, -, -, h⟩ | ⟨hm, -, i, -, -, h⟩ := k.press_cases c
  · rw [h, shows_of_modifier hm, BitVec.getLsbD_or, modifierBit_own hm, Bool.or_true]
  · rw [h]
    exact (shows_iff_of_normal (by simpa using hm)).mpr hpresent
  · rw [h] at hok
    cases hok
  · rw [h]
    exact (shows_iff_of_normal (by simpa using hm)).mpr ⟨i, by rw [setSlot_get, if_pos rfl]⟩

/-- R157: a clear leaves the key not shown, as no code stands in two slots. -/
theorem Keyboard.shows_release_self (hsound : k.SlotsSound) (hc : isKeyCode c) : (k.release c).2.shows c = false := by
  obtain ⟨hm, h⟩ | ⟨hm, habsent, h⟩ | ⟨hm, i, hi, -, h⟩ := k.release_cases c
  · rw [h, shows_of_modifier hm, BitVec.getLsbD_and, BitVec.getLsbD_not, modifierBit_own hm, Bool.not_true,
      Bool.and_false, Bool.and_false]
  · rw [h, Bool.eq_false_iff, ne_eq, shows_iff_of_normal (by simpa using hm)]
    exact fun ⟨j, hj⟩ => habsent j hj
  · rw [h, Bool.eq_false_iff, ne_eq, shows_iff_of_normal (by simpa using hm)]
    rintro ⟨j, hj⟩
    rw [setSlot_get] at hj
    split at hj
    · exact ne_zero_of_isKeyCode hc hj.symm
    · rename_i hij
      exact hij (hsound.2 i j (hi ▸ ne_zero_of_isKeyCode hc) (hi.trans hj.symm))

/-- Everything a key of KB_APPLY does to the encoder: a modifier changes its own bit, a normal key at most one slot, which
was empty or its own and becomes so again. -/
theorem Keyboard.applyKey_cases (k : Keyboard) (down : Bool) (d : Byte) :
    (isModifier d ∧ ∃ ctrl, (k.applyKey down d).2 = { k with ctrl := ctrl } ∧
      ∀ j < 8, d.toNat ≠ 224 + j → ctrl.getLsbD j = k.ctrl.getLsbD j) ∨
    (k.applyKey down d).2 = k ∨
    (isModifier d = false ∧ ∃ i x, (k.keys[i] = 0 ∨ k.keys[i] = d) ∧ (x = 0 ∨ x = d) ∧
      (k.applyKey down d).2 = k.setSlot i x) := by
  cases down with
  | true =>
    obtain ⟨hm, h⟩ | ⟨-, -, h⟩ | ⟨-, -, -, h⟩ | ⟨hm, -, i, hi, -, h⟩ := k.press_cases d
    · refine .inl ⟨hm, _, congrArg Prod.snd h, fun j hj hne => ?_⟩
      rw [BitVec.getLsbD_or, modifierBit_getLsbD (isModifier_iff.mp hm).1 hj]
      simp [hne]
    · exact .inr (.inl (congrArg Prod.snd h))
    · exact .inr (.inl (congrArg Prod.snd h))
    · exact .inr (.inr ⟨by simpa using hm, i, d, .inl hi, .inr rfl, congrArg Prod.snd h⟩)
  | false =>
    obtain ⟨hm, h⟩ | ⟨-, -, h⟩ | ⟨hm, i, hi, -, h⟩ := k.release_cases d
    · refine .inl ⟨hm, _, congrArg Prod.snd h, fun j hj hne => ?_⟩
      rw [BitVec.getLsbD_and, BitVec.getLsbD_not, modifierBit_getLsbD (isModifier_iff.mp hm).1 hj]
      simp [hne, hj]
    · exact .inr (.inl (congrArg Prod.snd h))
    · exact .inr (.inr ⟨by simpa using hm, i, 0, .inr hi, .inl rfl, congrArg Prod.snd h⟩)

theorem Keyboard.shows_setSlot_of_ne {i : Fin 6} {x : Byte} (hi : k.keys[i] ≠ c) (hx : x ≠ c) :
    (k.setSlot i x).shows c = k.shows c := by
  by_cases hm : isModifier c
  · rw [shows_of_modifier hm, shows_of_modifier hm, setSlot_ctrl]
  · rw [Bool.not_eq_true] at hm
    rw [Bool.eq_iff_iff, shows_iff_of_normal hm, shows_iff_of_normal hm]
    refine exists_congr fun j => ?_
    rw [setSlot_get]
    split
    · rename_i hij
      exact iff_of_false hx (hij ▸ hi)
    · rfl

/-- A key of KB_APPLY leaves whether another key is shown. -/
theorem Keyboard.shows_applyKey_of_ne (k : Keyboard) (down : Bool) (hc : isKeyCode c) (hne : c ≠ d) :
    (k.applyKey down d).2.shows c = k.shows c := by
  obtain ⟨hd, ctrl, h, hbits⟩ | h | ⟨-, i, x, hi, hx, h⟩ := k.applyKey_cases down d
  · rw [h]
    by_cases hm : isModifier c
    · have hcode := isModifier_iff.mp hm
      have hcode' := isModifier_iff.mp hd
      have hne' : c.toNat ≠ d.toNat := fun h => hne (BitVec.eq_of_toNat_eq h)
      rw [shows_of_modifier hm, shows_of_modifier hm]
      exact hbits _ (by omega) (by omega)
    · exact shows_of_keys_eq (by simpa using hm) rfl
  · rw [h]
  · have hzero := ne_zero_of_isKeyCode hc
    rw [h]
    refine shows_setSlot_of_ne ?_ ?_
    · obtain hi | hi := hi <;> rw [hi]
      · exact hzero.symm
      · exact hne.symm
    · obtain rfl | rfl := hx
      · exact hzero.symm
      · exact hne.symm

end Shows

/-! ## The second application of a mask (R162) -/

section Repeat

variable {k : Keyboard} {c : Byte}

/-- R155, R157: with six occupied slots no set stores a key, and a clear frees a slot only of the key's own. -/
theorem Keyboard.applyKey_keys_of_full (down : Bool) (hfull : ∀ i : Fin 6, k.keys[i] ≠ 0)
    (hown : down = false → isModifier c = false → ∀ i : Fin 6, k.keys[i] ≠ c) :
    (k.applyKey down c).2.keys = k.keys := by
  cases down with
  | true =>
    obtain ⟨-, h⟩ | ⟨-, -, h⟩ | ⟨-, -, -, h⟩ | ⟨-, -, i, hi, -, -⟩ := k.press_cases c
    · exact congrArg (Keyboard.keys ∘ Prod.snd) h
    · exact congrArg (Keyboard.keys ∘ Prod.snd) h
    · exact congrArg (Keyboard.keys ∘ Prod.snd) h
    · exact absurd hi (hfull i)
  | false =>
    obtain ⟨-, h⟩ | ⟨-, -, h⟩ | ⟨hm, i, hi, -, -⟩ := k.release_cases c
    · exact congrArg (Keyboard.keys ∘ Prod.snd) h
    · exact congrArg (Keyboard.keys ∘ Prod.snd) h
    · exact absurd hi (hown rfl (by simpa using hm) i)

/-- R162: a key applied twice in a row. -/
theorem Keyboard.applyKey_applyKey (hsound : k.SlotsSound) (down : Bool) (hc : isKeyCode c) :
    (k.applyKey down c).2.applyKey down c =
      (codeWhenRepeated down c (k.applyKey down c).1, (k.applyKey down c).2) := by
  cases down with
  | false => exact applyKey_of_shows (shows_release_self hsound hc)
  | true =>
    obtain hok | hfull := k.press_ok_or_full c
    · refine (applyKey_of_shows (shows_press_self hok)).trans ?_
      rw [← hok]
      rfl
    · change (k.press c).2.press c = ((k.press c).1, (k.press c).2)
      rw [hfull, hfull]

/-- R162: key A applied again after key B, outside the case of notes/assumptions/8.md: where key A's set found no slot, key
B has freed none. -/
theorem Keyboard.applyKey_after_other {cfg : Config} {m : ButtonMask} (hsound : k.SlotsSound) (hlegal : cfg.legal)
    (hnot : ¬ k.FreesSlotTooLate cfg m) :
    ((k.applyKey (m.getLsbD 0) cfg.keyA).2.applyKey (m.getLsbD 1) cfg.keyB).2.applyKey (m.getLsbD 0) cfg.keyA =
      (codeWhenRepeated (m.getLsbD 0) cfg.keyA (k.applyKey (m.getLsbD 0) cfg.keyA).1,
        ((k.applyKey (m.getLsbD 0) cfg.keyA).2.applyKey (m.getLsbD 1) cfg.keyB).2) := by
  obtain ⟨-, -, hkeyA, hkeyB, hne, -⟩ := config_legal_iff.mp hlegal
  have hkept : ∀ k' : Keyboard, (k'.applyKey (m.getLsbD 1) cfg.keyB).2.shows cfg.keyA = k'.shows cfg.keyA :=
    fun k' => k'.shows_applyKey_of_ne _ hkeyA hne.symm
  cases hbit : m.getLsbD 0 with
  | false => exact applyKey_of_shows ((hkept _).trans (shows_release_self hsound hkeyA))
  | true =>
    obtain hok | hturned := k.press_ok_or_full cfg.keyA
    · refine (applyKey_of_shows ((hkept _).trans (shows_press_self hok))).trans ?_
      rw [← hok]
      rfl
    · obtain ⟨hnormal, hfull⟩ := (press_capacityExhausted_iff hkeyA).mp (congrArg Prod.fst hturned)
      have hkeys : (k.applyKey (m.getLsbD 1) cfg.keyB).2.keys = k.keys := by
        refine applyKey_keys_of_full _ (fun i => (hfull i).2) fun hup hm i hi => hnot ?_
        have hnormalB : isNormal cfg.keyB := by simpa [isKeyCode, hm] using hkeyB
        exact ⟨hbit, hup, isNormal_iff.mpr hnormal, hnormalB, hfull, i, hi⟩
      change (((k.press cfg.keyA).2).applyKey (m.getLsbD 1) cfg.keyB).2.press cfg.keyA =
        ((k.press cfg.keyA).1, (((k.press cfg.keyA).2).applyKey (m.getLsbD 1) cfg.keyB).2)
      rw [hturned]
      exact press_of_full (isModifier_eq_false_of_le hnormal.2) (fun i => by rw [hkeys]; exact (hfull i).1)
        fun i => by rw [hkeys]; exact (hfull i).2

/-- R160: KB_APPLY from what each of its halves does. -/
theorem exec_kbApply {s : State} {m : ButtonMask} {rA rB : ResultCode} {kA kB : Keyboard} (hlegal : s.cfg.legal)
    (hA : s.kb.applyKey (m.getLsbD 0) s.cfg.keyA = (rA, kA)) (hB : kA.applyKey (m.getLsbD 1) s.cfg.keyB = (rB, kB)) :
    exec (.kbApply m) s = .next (({ s with kb := kB } : State).record
      { code := if rA = .ok then rB else rA
        detail := BitVec.ofNat 8 (16 * rB.toByte.toNat + rA.toByte.toNat), payload := none }) :=
  execKbApply_next.mpr ⟨hlegal, by rw [hA, hB, Result.ofApply_eq]⟩

end Repeat

/-- Settles O37: the second application finds key A as the first left it (`applyKey_after_other`), and then key B
(`applyKey_applyKey`). -/
theorem secondApplyIsIdleAndReturnsTheNamedCodes : Obligations.SecondApplyIsIdleAndReturnsTheNamedCodes := by
  intro s t m hsound hnot h
  obtain ⟨hlegal, rfl⟩ := execKbApply_next.mp h
  obtain ⟨-, -, hkeyA, hkeyB, -⟩ := config_legal_iff.mp hlegal
  have hA := Keyboard.applyKey_after_other hsound hlegal hnot
  have hB := Keyboard.applyKey_applyKey (Keyboard.applyKey_sound hsound (m.getLsbD 0) hkeyA) (m.getLsbD 1) hkeyB
  exact Eq.trans (exec_kbApply hlegal hA hB) rfl

/-- Settles O36: a first application in the case left out of O37 turns key A away. -/
theorem secondApplyIsIdleUnlessKeyAWasTurnedAway : Obligations.SecondApplyIsIdleUnlessKeyAWasTurnedAway := by
  intro s t u m hsound ht hu hcode
  have hnot : ¬ s.kb.FreesSlotTooLate s.cfg m := by
    rintro ⟨hbit, -, hnormal, -, hfull, -⟩
    rw [hbit] at hcode
    exact hcode (congrArg Prod.fst (Keyboard.press_of_full (isModifier_of_isNormal hnormal)
      (fun i => (hfull i).1) fun i => (hfull i).2))
  have hidle := secondApplyIsIdleAndReturnsTheNamedCodes s t m hsound hnot ht
  obtain rfl := Host.Outcome.next.inj (hu.symm.trans hidle)
  exact ⟨rfl, rfl⟩

theorem Keyboard.setSlot_setSlot (k : Keyboard) (i : Fin 6) (c d : Byte) :
    (k.setSlot i c).setSlot i d = k.setSlot i d := by
  simp [setSlot]

/-- Settles O38: each half of both applications is one case of `set` or `clear`, slot `j` the only one that is ever
empty. -/
theorem secondApplyStoresTheKeyTurnedAway : Obligations.SecondApplyStoresTheKeyTurnedAway := by
  rintro s m j hlegal hsound ⟨hbitA, hbitB, hnormalA, hnormalB, hfull, -⟩ hj
  obtain ⟨-, -, hkeyA, hkeyB, hne, -⟩ := config_legal_iff.mp hlegal
  have hmA := isModifier_of_isNormal hnormalA
  have hmB := isModifier_of_isNormal hnormalB
  have honly : ∀ i : Fin 6, s.kb.keys[i] = s.cfg.keyB → i = j := fun i hi =>
    hsound.2 i j (hfull i).2 (hi.trans hj.symm)
  have hA : s.kb.applyKey (m.getLsbD 0) s.cfg.keyA = (.capacityExhausted, s.kb) := by
    rw [hbitA]
    exact Keyboard.press_of_full hmA (fun i => (hfull i).1) fun i => (hfull i).2
  have hB : s.kb.applyKey (m.getLsbD 1) s.cfg.keyB = (.ok, s.kb.setSlot j 0) := by
    rw [hbitB]
    exact Keyboard.release_of_first hmB hj fun i hlt hi => hlt.ne (honly i hi)
  have hA' : (s.kb.setSlot j 0).applyKey (m.getLsbD 0) s.cfg.keyA = (.ok, s.kb.setSlot j s.cfg.keyA) := by
    rw [hbitA, ← s.kb.setSlot_setSlot j 0 s.cfg.keyA]
    refine Keyboard.press_of_firstEmpty (i := j) hmA (fun i => ?_) (by rw [Keyboard.setSlot_get, if_pos rfl])
      fun i hlt => ?_
    · rw [Keyboard.setSlot_get]
      split
      · exact (ne_zero_of_isKeyCode hkeyA).symm
      · exact (hfull i).1
    · rw [Keyboard.setSlot_get, if_neg hlt.ne']
      exact (hfull i).2
  have hB' : (s.kb.setSlot j s.cfg.keyA).applyKey (m.getLsbD 1) s.cfg.keyB =
      (.keyNotFound, s.kb.setSlot j s.cfg.keyA) := by
    rw [hbitB]
    refine Keyboard.release_of_absent hmB fun i => ?_
    rw [Keyboard.setSlot_get]
    split
    · exact hne.symm
    · rename_i hji
      exact fun hi => hji (honly i hi).symm
  exact ⟨_, exec_kbApply hlegal hA hB, rfl, Eq.trans (exec_kbApply hlegal hA' hB') rfl⟩

/-- Six occupied slots, `KEY_A` = 4 in none of them and `KEY_B` = 5 in the first (notes/assumptions/8.md). -/
def crowded : State :=
  { State.reset with
    cfg := { Config.initial with keyA := 4, keyB := 5 }
    kb := { ctrl := 0, keys := #v[5, 1, 2, 3, 6, 7] } }

/-- Refutes O35: from `crowded`, the mask 0b001 frees slot 0 in the first application and stores key A there in the
second. -/
theorem not_secondApplyNeverChangesTheEncoder : ¬ Obligations.SecondApplyNeverChangesTheEncoder := by
  intro hidle
  have hsound : crowded.kb.SlotsSound := by decide
  obtain ⟨t, ht, rfl, hu⟩ := secondApplyStoresTheKeyTurnedAway crowded 0b001 0 (by decide) hsound (by decide) rfl
  have hkb := hidle crowded _ _ 0b001 hsound ht hu
  have hslot : (4 : Byte) = 0 := congrArg (fun k : Keyboard => k.keys[0]) hkb
  exact absurd hslot (by decide)

/-! ## A seventh key, and the report of a mask (R164, R166) -/

/-- Settles O33: no slot holds the key and none, each holding a normal code, is empty. -/
theorem seventhKeyIsRefusedCapacity : Obligations.SeventhKeyIsRefusedCapacity := by
  intro s c hlegal hnormal _ hc habsent
  exact exec_kbSet hlegal (isKeyCode_of_isNormal hc) (Keyboard.press_of_full (isModifier_of_isNormal hc) habsent
    fun i => ne_zero_of_isKeyCode (isKeyCode_of_isNormal (hnormal i)))

section RoundTrip

variable {k : Keyboard} {c : Byte}

/-- R160, R166: with an empty slot, a key of KB_APPLY is shown exactly when its bit is set. -/
theorem Keyboard.shows_applyKey_self (hsound : k.SlotsSound) (down : Bool) (hc : isKeyCode c)
    (hroom : ∃ i : Fin 6, k.keys[i] = 0) : (k.applyKey down c).2.shows c = down := by
  cases down with
  | false => exact shows_release_self hsound hc
  | true =>
    refine shows_press_self ((k.press_ok_or_full c).resolve_right fun hturned => ?_)
    obtain ⟨-, hfull⟩ := (press_capacityExhausted_iff hc).mp (congrArg Prod.fst hturned)
    obtain ⟨i, hi⟩ := hroom
    exact (hfull i).2 hi

/-- R155, R157: a key changes at most one slot, so of two empty ones one is left. -/
theorem Keyboard.applyKey_room (down : Bool) {i j : Fin 6} (hij : i ≠ j) (hi : k.keys[i] = 0) (hj : k.keys[j] = 0) :
    ∃ n : Fin 6, (k.applyKey down c).2.keys[n] = 0 := by
  obtain ⟨-, ctrl, h, -⟩ | h | ⟨-, n, x, -, -, h⟩ := k.applyKey_cases down c <;> rw [h]
  · exact ⟨i, hi⟩
  · exact ⟨i, hi⟩
  · by_cases hn : n = i
    · exact ⟨j, by rw [setSlot_get, if_neg (hn ▸ hij), hj]⟩
    · exact ⟨i, by rw [setSlot_get, if_neg hn, hi]⟩

end RoundTrip

/-- Settles O39: either key finds room, so its bit decides whether it is shown, and key B leaves key A as it is. -/
theorem reportRoundTripsTheMask : Obligations.ReportRoundTripsTheMask := by
  intro s m inp1 inp2 hlegal hempty
  obtain ⟨-, -, hkeyA, hkeyB, hne, -⟩ := config_legal_iff.mp hlegal
  have hsound : s.kb.SlotsSound := hempty ▸ Keyboard.reset_sound
  have hslot : ∀ i : Fin 6, s.kb.keys[i] = 0 := by
    rw [hempty]
    decide
  have happly := exec_kbApply (s := s.give inp1) (m := m) hlegal rfl rfl
  refine ⟨_, _, runOps_cons.mpr ⟨_, happly, runOps_cons.mpr ⟨_, execKbSer_next.mpr ⟨hlegal, rfl⟩, rfl⟩⟩, rfl, ?_, ?_⟩
  · exact (Keyboard.shows_applyKey_of_ne _ _ hkeyA hne.symm).trans
      (Keyboard.shows_applyKey_self hsound _ hkeyA ⟨0, hslot 0⟩)
  · exact Keyboard.shows_applyKey_self (Keyboard.applyKey_sound hsound _ hkeyA) _ hkeyB
      (Keyboard.applyKey_room _ (i := 0) (j := 1) (by decide) (hslot 0) (hslot 1))

/-! ## The status words of the default codes (R196) -/

theorem chargeTier_default (l : Byte) :
    chargeTier Codes.default l = if l.toNat ≤ 9 then 3 else if l.toNat ≤ 19 then 2 else 1 := by
  simp only [chargeTier, Nat.lt_succ_iff]
  rfl

/-- R194, R196: the word with the default codes; while charging, the tier alone depends on the level. -/
theorem computeStatus_default (l : Byte) (ch : Bool) : (computeStatus Codes.default l ch).1 =
    if ch = false then 0x0045 else if l.toNat ≤ 9 then 0x03A3 else if l.toNat ≤ 19 then 0x0323 else 0x02A3 := by
  cases ch with
  | false => rfl
  | true =>
    have hword : (computeStatus Codes.default l true).1 = packPowerState 1 0 1 (chargeTier Codes.default l) 1 := rfl
    rw [hword, chargeTier_default]
    by_cases h9 : l.toNat ≤ 9
    · simp only [h9, if_true, Bool.true_eq_false, if_false]
      decide
    · by_cases h19 : l.toNat ≤ 19
      · simp only [h9, h19, if_true, Bool.true_eq_false, if_false]
        decide
      · simp only [h9, h19, Bool.true_eq_false, if_false]
        decide

/-- Settles O44: BAT_COMPUTE stores the word of `computeStatus_default`. -/
theorem defaultCodesGiveFourStatusWords : Obligations.DefaultCodesGiveFourStatusWords := by
  intro s l ch hlegal hcodes
  refine ⟨_, execBatCompute_next.mpr ⟨hlegal, rfl⟩, ?_⟩
  change (computeStatus s.cfg.codes l ch).1 = _
  rw [hcodes, computeStatus_default]

end Sys2Proof.Machine
